-- ==== Sys2Proof/Word.lean ====
section
/-! DEFINITION. Word: the fixed-width words of the block (00_scope.md R10, R11; 10_state.md R31). -/

namespace Sys2Proof

/-- A byte of a buffer or frame (R9). -/
abbrev Byte := BitVec 8

/-- `u16` (R10). -/
abbrev U16 := BitVec 16

/-- `u32` (R10). -/
abbrev U32 := BitVec 32

/-- The 64 bits of an IEEE 754 binary64 value (R11). -/
abbrev F64 := BitVec 64

/-- A RawFrame: exactly 16 bytes, as the 128-bit value `F = BE(f[0..16))` (R31, R71). -/
abbrev RawFrame := BitVec 128

/-- The 9-bit calibration selector `SEL = (UNIT, ID)` (R81). -/
abbrev Sel := BitVec 9

end Sys2Proof
end

