-- ==== Sys2Proof/Machine/Operands.lean ====
section
/-! DEFINITION. Operands: the field assembly of frames, windows and selectors (30_encoding.md sections 1 to 3). -/

namespace Sys2Proof.Machine

/-- The sync marker `FE 6B 28 40` as a big-endian u32 (R73). -/
def marker : U32 := 0xFE6B2840

/-- The sync marker as the byte sequence `MARKER` (R73; 00_scope.md R12). -/
def markerBytes : List Byte := [0xFE, 0x6B, 0x28, 0x40]

/-- `BE(bs)`: big-endian value of a byte sequence (R9, R50). -/
def beValue (bs : List Byte) : Nat := bs.foldl (fun acc b => acc * 256 + b.toNat) 0

/-- The window word `BE(BUF[CUR..CUR+4))` (R52, R73). -/
def windowOfBytes (bs : List Byte) : U32 := BitVec.ofNat 32 (beValue bs)

/-- The frame value `F = BE(f[0..16))` (R71). -/
def frameOfBytes (bs : List Byte) : RawFrame := BitVec.ofNat 128 (beValue bs)

/-- Byte `f[k]` of a frame: `f[0]` is `F[127:120]`, `f[15]` is `F[7:0]` (R71). -/
def frameByte (f : RawFrame) (k : Nat) : Byte := f.extractLsb' (120 - 8 * k) 8

/-- The 16 bytes of a frame in offset order (R71). -/
def frameBytes (f : RawFrame) : List Byte := (List.range 16).map (frameByte f)

/-- The four bytes of a window word in offset order (R52). -/
def windowBytes (w : U32) : List Byte :=
  [w.extractLsb' 24 8, w.extractLsb' 16 8, w.extractLsb' 8 8, w.extractLsb' 0 8]

/-- `W0 = F[127:96]` (R70, R71): the marker slot, read by no decoder (R72). -/
def frameW0 (f : RawFrame) : U32 := f.extractLsb' 96 32

/-- `W1 = F[95:64]` (R70, R71). -/
def frameW1 (f : RawFrame) : U32 := f.extractLsb' 64 32

/-- `H0 = F[63:48]` (R70, R71). -/
def frameH0 (f : RawFrame) : U16 := f.extractLsb' 48 16

/-- `H1 = F[47:32]` (R70, R71). -/
def frameH1 (f : RawFrame) : U16 := f.extractLsb' 32 16

/-- `H2 = F[31:16]` (R70, R71). -/
def frameH2 (f : RawFrame) : U16 := f.extractLsb' 16 16

/-- `H3 = F[15:0]` (R70, R71). -/
def frameH3 (f : RawFrame) : U16 := f.extractLsb' 0 16

/-- A frame from its six field words (R70, R91). -/
def frameOfFields (w0 w1 : U32) (h0 h1 h2 h3 : U16) : RawFrame :=
  w0 ++ w1 ++ h0 ++ h1 ++ h2 ++ h3

/-- `HKT = W1[31]` (R74): the HK-type discriminator, the only kind bit (R80). -/
def w1Hkt (w1 : U32) : Bool := w1.getLsbD 31

/-- `CMD = W1[30]` (R74): the commanded-event flag. -/
def w1Cmd (w1 : U32) : Bool := w1.getLsbD 30

/-- The timestamp `zext_32(W1[29:0])` (R75). -/
def w1Ts (w1 : U32) : U32 := (w1.extractLsb' 0 30).setWidth 32

/-- The kind bit of a frame (R80). -/
def frameHkt (f : RawFrame) : Bool := w1Hkt (frameW1 f)

/-- `HK_ID = H0[15:12]` (R76). -/
def h0Id (h0 : U16) : BitVec 4 := h0.extractLsb' 12 4

/-- `HK_VAL12 = H0[11:0]` (R76). -/
def h0Val12 (h0 : U16) : BitVec 12 := h0.extractLsb' 0 12

/-- The raw value of R77: unshifted for ids 10 and 11, else shifted left by 4. -/
def hkRaw (id : BitVec 4) (v12 : BitVec 12) : U16 :=
  if id = 10 ∨ id = 11 then v12.setWidth 16 else v12 ++ (0 : BitVec 4)

/-- `SEL[8]`, the HardwareUnit bit (R81). -/
def selUnitBit (sel : Sel) : Bool := sel.getLsbD 8

/-- `SEL[7:0]`, the id (R81). -/
def selId (sel : Sel) : Byte := sel.extractLsb' 0 8

/-- `SEL = (UNIT, ID)` (R81). -/
def selOf (unitBit : Bool) (id : Byte) : Sel := BitVec.ofBool unitBit ++ id

end Sys2Proof.Machine
end

