-- ==== Sys2Proof/Syntax.lean ====
section
/-! DEFINITION. Syntax: one constructor per row of spec/opcode_table.json, with the operands R81 and R82 give it. -/

namespace Sys2Proof

/-- A HardwareUnit (10_state.md R34). -/
inductive HardwareUnit where
  | unit1
  | unit2
  deriving DecidableEq, Repr, Inhabited

/-- The one bit of a HardwareUnit: 0 encodes Unit1, 1 encodes Unit2 (R34). -/
def HardwareUnit.bit : HardwareUnit → Bool
  | .unit1 => false
  | .unit2 => true

/-- The HardwareUnit of a bit (R34). -/
def HardwareUnit.ofBit (b : Bool) : HardwareUnit := if b then .unit2 else .unit1

/-- The rows of the opcode table. The `host_cmd` rows are the operations the host issues (R82); the rows of the other
three formats are what STEP, DECODE_SCI, DECODE_HK and CALIBRATE select by the window, by `W1` and by `SEL` (R92), log 12.
A calibration row whose mask leaves UNIT or id bits free carries them as operands, so that no bit is lost. -/
inductive Instr where
  -- format `window`, 32 bits, BE(BUF[CUR..CUR+4))
  | sync
  | nosync (win : U32)
  -- format `frame_w1`: the frame whose W1 is decoded
  | hkFrame (f : RawFrame)
  | nonHkFrame (f : RawFrame)
  | sciAnyW1 (f : RawFrame)
  -- format `cal_sel`, 9 bits, with CALIBRATE's other operands
  | calId0 (unit : HardwareUnit) (raw : U16) (vpc : F64)
  | calId1 (unit : HardwareUnit) (raw : U16) (vpc : F64)
  | calId2 (unit : HardwareUnit) (raw : U16) (vpc : F64)
  | calId3 (unit : HardwareUnit) (raw : U16) (vpc : F64)
  | calId4U1 (raw : U16) (vpc : F64)
  | calId4U2 (raw : U16) (vpc : F64)
  | calId5 (unit : HardwareUnit) (raw : U16) (vpc : F64)
  | calId6U1 (raw : U16) (vpc : F64)
  | calId6U2 (raw : U16) (vpc : F64)
  | calId7 (unit : HardwareUnit) (raw : U16) (vpc : F64)
  | calId8U1 (raw : U16) (vpc : F64)
  | calId8U2 (raw : U16) (vpc : F64)
  | calId9 (unit : HardwareUnit) (raw : U16) (vpc : F64)
  | calId10 (unit : HardwareUnit) (raw : U16) (vpc : F64)
  | calId11 (unit : HardwareUnit) (raw : U16) (vpc : F64)
  | calId12 (unit : HardwareUnit) (raw : U16) (vpc : F64)
  | calId13 (unit : HardwareUnit) (raw : U16) (vpc : F64)
  | calId14 (unit : HardwareUnit) (raw : U16) (vpc : F64)
  | calId15 (unit : HardwareUnit) (raw : U16) (vpc : F64)
  | calUnknownA (unit : HardwareUnit) (low : BitVec 7) (raw : U16) (vpc : F64)
  | calUnknownB (unit : HardwareUnit) (low : BitVec 6) (raw : U16) (vpc : F64)
  | calUnknownC (unit : HardwareUnit) (low : BitVec 5) (raw : U16) (vpc : F64)
  | calUnknownD (unit : HardwareUnit) (low : BitVec 4) (raw : U16) (vpc : F64)
  -- format `host_cmd`, 8 bits (R82)
  | load (b : List Byte)
  | restart
  | step
  | next
  | decodeSci (f : RawFrame)
  | decodeHk (f : RawFrame)
  | calibrate (id : Byte) (raw : U16) (vpc : F64) (unit : HardwareUnit)
  deriving DecidableEq, Repr

/-- One host operation as the command port carries it: the command code and the operands "passed as typed values"
(R82, D12). Each command reads only its own operands; what the other operands hold has no effect, log 24. -/
structure HostWord where
  /-- `OP[7:0]` (R82). -/
  op : Byte
  /-- LOAD's byte sequence `b`. -/
  bytes : List Byte
  /-- The RawFrame `f` of DECODE_SCI and DECODE_HK. -/
  frame : RawFrame
  /-- CALIBRATE's `id`. -/
  id : Byte
  /-- CALIBRATE's `raw`. -/
  raw : U16
  /-- CALIBRATE's `vpc`. -/
  vpc : F64
  /-- CALIBRATE's `unit`. -/
  unit : HardwareUnit
  deriving DecidableEq, Repr

/-- What one of the block's decoders is given (R92): a window, a frame seen by a decoder through its `W1`, a calibration
selector with CALIBRATE's other operands, or a host operation. -/
inductive Encoded where
  | window (w : U32)
  | frameHk (f : RawFrame)
  | frameSci (f : RawFrame)
  | calSel (sel : Sel) (raw : U16) (vpc : F64)
  | hostCmd (w : HostWord)
  deriving DecidableEq, Repr

end Sys2Proof
end

