-- ==== Sys2Proof/WellFormed.lean ====
section
/-! DEFINITION. WellFormed: the checks that a term of `Instr` stands for words its row matches (R92). -/

namespace Sys2Proof

/-- NOSYNC is every window other than the marker; HK_FRAME has `W1[31] = 1`, NON_HK_FRAME `W1[31] = 0` (R92).
Every other row admits every value of its operands; LOAD's length bound depends on ADDR_W and is LOAD's own test (R100). -/
def Instr.wf : Instr → Bool
  | .sync => true
  | .nosync win => win != Machine.marker
  | .hkFrame f => Machine.frameHkt f
  | .nonHkFrame f => !Machine.frameHkt f
  | .sciAnyW1 _ => true
  | .calId0 _ _ _ => true
  | .calId1 _ _ _ => true
  | .calId2 _ _ _ => true
  | .calId3 _ _ _ => true
  | .calId4U1 _ _ => true
  | .calId4U2 _ _ => true
  | .calId5 _ _ _ => true
  | .calId6U1 _ _ => true
  | .calId6U2 _ _ => true
  | .calId7 _ _ _ => true
  | .calId8U1 _ _ => true
  | .calId8U2 _ _ => true
  | .calId9 _ _ _ => true
  | .calId10 _ _ _ => true
  | .calId11 _ _ _ => true
  | .calId12 _ _ _ => true
  | .calId13 _ _ _ => true
  | .calId14 _ _ _ => true
  | .calId15 _ _ _ => true
  | .calUnknownA _ _ _ _ => true
  | .calUnknownB _ _ _ _ => true
  | .calUnknownC _ _ _ _ => true
  | .calUnknownD _ _ _ _ => true
  | .load _ => true
  | .restart => true
  | .step => true
  | .next => true
  | .decodeSci _ => true
  | .decodeHk _ => true
  | .calibrate _ _ _ _ => true

end Sys2Proof
end

