-- ==== Sys2Proof/Decode.lean ====
section
/-! DEFINITION. Decode: the block's four decoders, total, rejecting by name; the encoder; the opcode table's rows
(30_encoding.md R80 to R92). -/

namespace Sys2Proof

/-- Why a word has no instruction. -/
inductive DecodeError where
  /-- A command code outside R82 (R83). -/
  | reservedCommand (op : Byte)
  deriving DecidableEq, Repr

/-- `window`: SYNC when all four bytes equal the marker's, NOSYNC for every other value (R73, R92). -/
def decodeWindow (w : U32) : Instr := if w = Machine.marker then .sync else .nosync w

/-- `frame_w1` as DECODE_HK sees it: HK_FRAME or NON_HK_FRAME by `W1[31]` (R80, R92). -/
def decodeFrameHk (f : RawFrame) : Instr := if Machine.frameHkt f then .hkFrame f else .nonHkFrame f

/-- `frame_w1` as DECODE_SCI sees it: every `W1` is accepted (R92, R125). -/
def decodeFrameSci (f : RawFrame) : Instr := .sciAnyW1 f

/-- `cal_sel`: the row a selector picks (R81, R92). -/
def decodeCalSel (sel : Sel) (raw : U16) (vpc : F64) : Instr :=
  let unit := HardwareUnit.ofBit (Machine.selUnitBit sel)
  let id := Machine.selId sel
  if id = 0 then .calId0 unit raw vpc
  else if id = 1 then .calId1 unit raw vpc
  else if id = 2 then .calId2 unit raw vpc
  else if id = 3 then .calId3 unit raw vpc
  else if id = 4 then (match unit with | .unit1 => .calId4U1 raw vpc | .unit2 => .calId4U2 raw vpc)
  else if id = 5 then .calId5 unit raw vpc
  else if id = 6 then (match unit with | .unit1 => .calId6U1 raw vpc | .unit2 => .calId6U2 raw vpc)
  else if id = 7 then .calId7 unit raw vpc
  else if id = 8 then (match unit with | .unit1 => .calId8U1 raw vpc | .unit2 => .calId8U2 raw vpc)
  else if id = 9 then .calId9 unit raw vpc
  else if id = 10 then .calId10 unit raw vpc
  else if id = 11 then .calId11 unit raw vpc
  else if id = 12 then .calId12 unit raw vpc
  else if id = 13 then .calId13 unit raw vpc
  else if id = 14 then .calId14 unit raw vpc
  else if id = 15 then .calId15 unit raw vpc
  else if id.getLsbD 7 then .calUnknownA unit (id.extractLsb' 0 7) raw vpc
  else if id.getLsbD 6 then .calUnknownB unit (id.extractLsb' 0 6) raw vpc
  else if id.getLsbD 5 then .calUnknownC unit (id.extractLsb' 0 5) raw vpc
  else .calUnknownD unit (id.extractLsb' 0 4) raw vpc

/-- `host_cmd`: the command a code names (R82); every other code is reserved (R83). -/
def decodeHostWord (w : HostWord) : Except DecodeError Instr :=
  if w.op = 0x01 then .ok (.load w.bytes)
  else if w.op = 0x02 then .ok .restart
  else if w.op = 0x03 then .ok .step
  else if w.op = 0x04 then .ok .next
  else if w.op = 0x10 then .ok (.decodeSci w.frame)
  else if w.op = 0x11 then .ok (.decodeHk w.frame)
  else if w.op = 0x20 then .ok (.calibrate w.id w.raw w.vpc w.unit)
  else .error (.reservedCommand w.op)

/-- The block's decoders together (R92). -/
def decode : Encoded → Except DecodeError Instr
  | .window w => .ok (decodeWindow w)
  | .frameHk f => .ok (decodeFrameHk f)
  | .frameSci f => .ok (decodeFrameSci f)
  | .calSel sel raw vpc => .ok (decodeCalSel sel raw vpc)
  | .hostCmd w => decodeHostWord w

/-- A host operation with no operands: every operand port holds zero, log 24. -/
def hostWordOf (op : Byte) : HostWord :=
  { op := op, bytes := [], frame := 0, id := 0, raw := 0, vpc := 0, unit := .unit1 }

/-- The words of an instruction, from the match values of R82 and R92. -/
def encode : Instr → Encoded
  | .sync => .window 0xFE6B2840
  | .nosync win => .window win
  | .hkFrame f => .frameHk f
  | .nonHkFrame f => .frameHk f
  | .sciAnyW1 f => .frameSci f
  | .calId0 unit raw vpc => .calSel (Machine.selOf unit.bit 0) raw vpc
  | .calId1 unit raw vpc => .calSel (Machine.selOf unit.bit 1) raw vpc
  | .calId2 unit raw vpc => .calSel (Machine.selOf unit.bit 2) raw vpc
  | .calId3 unit raw vpc => .calSel (Machine.selOf unit.bit 3) raw vpc
  | .calId4U1 raw vpc => .calSel (Machine.selOf false 4) raw vpc
  | .calId4U2 raw vpc => .calSel (Machine.selOf true 4) raw vpc
  | .calId5 unit raw vpc => .calSel (Machine.selOf unit.bit 5) raw vpc
  | .calId6U1 raw vpc => .calSel (Machine.selOf false 6) raw vpc
  | .calId6U2 raw vpc => .calSel (Machine.selOf true 6) raw vpc
  | .calId7 unit raw vpc => .calSel (Machine.selOf unit.bit 7) raw vpc
  | .calId8U1 raw vpc => .calSel (Machine.selOf false 8) raw vpc
  | .calId8U2 raw vpc => .calSel (Machine.selOf true 8) raw vpc
  | .calId9 unit raw vpc => .calSel (Machine.selOf unit.bit 9) raw vpc
  | .calId10 unit raw vpc => .calSel (Machine.selOf unit.bit 10) raw vpc
  | .calId11 unit raw vpc => .calSel (Machine.selOf unit.bit 11) raw vpc
  | .calId12 unit raw vpc => .calSel (Machine.selOf unit.bit 12) raw vpc
  | .calId13 unit raw vpc => .calSel (Machine.selOf unit.bit 13) raw vpc
  | .calId14 unit raw vpc => .calSel (Machine.selOf unit.bit 14) raw vpc
  | .calId15 unit raw vpc => .calSel (Machine.selOf unit.bit 15) raw vpc
  | .calUnknownA unit low raw vpc => .calSel (Machine.selOf unit.bit ((1 : BitVec 1) ++ low)) raw vpc
  | .calUnknownB unit low raw vpc => .calSel (Machine.selOf unit.bit ((1 : BitVec 2) ++ low)) raw vpc
  | .calUnknownC unit low raw vpc => .calSel (Machine.selOf unit.bit ((1 : BitVec 3) ++ low)) raw vpc
  | .calUnknownD unit low raw vpc => .calSel (Machine.selOf unit.bit ((1 : BitVec 4) ++ low)) raw vpc
  | .load b => .hostCmd { hostWordOf 0x01 with bytes := b }
  | .restart => .hostCmd (hostWordOf 0x02)
  | .step => .hostCmd (hostWordOf 0x03)
  | .next => .hostCmd (hostWordOf 0x04)
  | .decodeSci f => .hostCmd { hostWordOf 0x10 with frame := f }
  | .decodeHk f => .hostCmd { hostWordOf 0x11 with frame := f }
  | .calibrate id raw vpc unit =>
    .hostCmd { hostWordOf 0x20 with id := id, raw := raw, vpc := vpc, unit := unit }

/-- A row of the opcode table: a word belongs to it when `word &&& mask = pat` (R92). -/
structure Row where
  mnemonic : String
  pat : Nat
  mask : Nat
  deriving DecidableEq, Repr

/-- A word belongs to a row (R92). -/
def Row.covers (r : Row) (word : Nat) : Bool := word &&& r.mask == r.pat

/-- The `frame_w1` rows of DECODE_HK (R92). -/
def w1Rows : List Row :=
  [⟨"HK_FRAME", 0x80000000, 0x80000000⟩, ⟨"NON_HK_FRAME", 0x00000000, 0x80000000⟩]

/-- The `cal_sel` rows (R92). -/
def calRows : List Row :=
  [⟨"CAL_ID0", 0x000, 0x0FF⟩,
   ⟨"CAL_ID1", 0x001, 0x0FF⟩,
   ⟨"CAL_ID2", 0x002, 0x0FF⟩,
   ⟨"CAL_ID3", 0x003, 0x0FF⟩,
   ⟨"CAL_ID4_U1", 0x004, 0x1FF⟩,
   ⟨"CAL_ID4_U2", 0x104, 0x1FF⟩,
   ⟨"CAL_ID5", 0x005, 0x0FF⟩,
   ⟨"CAL_ID6_U1", 0x006, 0x1FF⟩,
   ⟨"CAL_ID6_U2", 0x106, 0x1FF⟩,
   ⟨"CAL_ID7", 0x007, 0x0FF⟩] ++
  [⟨"CAL_ID8_U1", 0x008, 0x1FF⟩,
   ⟨"CAL_ID8_U2", 0x108, 0x1FF⟩,
   ⟨"CAL_ID9", 0x009, 0x0FF⟩,
   ⟨"CAL_ID10", 0x00A, 0x0FF⟩,
   ⟨"CAL_ID11", 0x00B, 0x0FF⟩,
   ⟨"CAL_ID12", 0x00C, 0x0FF⟩,
   ⟨"CAL_ID13", 0x00D, 0x0FF⟩,
   ⟨"CAL_ID14", 0x00E, 0x0FF⟩,
   ⟨"CAL_ID15", 0x00F, 0x0FF⟩] ++
  [⟨"CAL_UNKNOWN_a", 0x080, 0x080⟩,
   ⟨"CAL_UNKNOWN_b", 0x040, 0x0C0⟩,
   ⟨"CAL_UNKNOWN_c", 0x020, 0x0E0⟩,
   ⟨"CAL_UNKNOWN_d", 0x010, 0x0F0⟩]

/-- The `host_cmd` rows (R82, R92). -/
def hostRows : List Row :=
  [⟨"LOAD", 0x01, 0xFF⟩, ⟨"RESTART", 0x02, 0xFF⟩, ⟨"STEP", 0x03, 0xFF⟩, ⟨"NEXT", 0x04, 0xFF⟩,
   ⟨"DECODE_SCI", 0x10, 0xFF⟩, ⟨"DECODE_HK", 0x11, 0xFF⟩, ⟨"CALIBRATE", 0x20, 0xFF⟩]

/-- The mnemonic of an instruction's row in spec/opcode_table.json. -/
def mnemonicOf : Instr → String
  | .sync => "SYNC"
  | .nosync _ => "NOSYNC"
  | .hkFrame _ => "HK_FRAME"
  | .nonHkFrame _ => "NON_HK_FRAME"
  | .sciAnyW1 _ => "SCI_ANY_W1"
  | .calId0 _ _ _ => "CAL_ID0"
  | .calId1 _ _ _ => "CAL_ID1"
  | .calId2 _ _ _ => "CAL_ID2"
  | .calId3 _ _ _ => "CAL_ID3"
  | .calId4U1 _ _ => "CAL_ID4_U1"
  | .calId4U2 _ _ => "CAL_ID4_U2"
  | .calId5 _ _ _ => "CAL_ID5"
  | .calId6U1 _ _ => "CAL_ID6_U1"
  | .calId6U2 _ _ => "CAL_ID6_U2"
  | .calId7 _ _ _ => "CAL_ID7"
  | .calId8U1 _ _ => "CAL_ID8_U1"
  | .calId8U2 _ _ => "CAL_ID8_U2"
  | .calId9 _ _ _ => "CAL_ID9"
  | .calId10 _ _ _ => "CAL_ID10"
  | .calId11 _ _ _ => "CAL_ID11"
  | .calId12 _ _ _ => "CAL_ID12"
  | .calId13 _ _ _ => "CAL_ID13"
  | .calId14 _ _ _ => "CAL_ID14"
  | .calId15 _ _ _ => "CAL_ID15"
  | .calUnknownA _ _ _ _ => "CAL_UNKNOWN_a"
  | .calUnknownB _ _ _ _ => "CAL_UNKNOWN_b"
  | .calUnknownC _ _ _ _ => "CAL_UNKNOWN_c"
  | .calUnknownD _ _ _ _ => "CAL_UNKNOWN_d"
  | .load _ => "LOAD"
  | .restart => "RESTART"
  | .step => "STEP"
  | .next => "NEXT"
  | .decodeSci _ => "DECODE_SCI"
  | .decodeHk _ => "DECODE_HK"
  | .calibrate _ _ _ _ => "CALIBRATE"

/-- The instruction that a table word gives (log 13). The table's four formats are told apart by who presents the word
to which decoder, not by the word, and two pairs of formats share a width, so a width picks the decoder here:
8 bits are a command code and, where that code is reserved, a selector of Unit1;
9 bits (16 in whole bytes) are a selector;
32 bits are the marker's window or else a `W1` as DECODE_HK sees it, in a frame whose other bytes are 0. -/
def decodeTableWord (nbits w : Nat) : Option Instr :=
  if nbits = 8 then
    match decodeHostWord (hostWordOf (BitVec.ofNat 8 w)) with
    | .ok i => some i
    | .error _ => some (decodeCalSel (Machine.selOf false (BitVec.ofNat 8 w)) 0 0)
  else if nbits = 9 ∨ nbits = 16 then
    if w < 512 then some (decodeCalSel (BitVec.ofNat 9 w) 0 0) else none
  else if nbits = 32 then
    if BitVec.ofNat 32 w = Machine.marker then some (decodeWindow (BitVec.ofNat 32 w))
    else some (decodeFrameHk (Machine.frameOfFields 0 (BitVec.ofNat 32 w) 0 0 0 0))
  else none

end Sys2Proof
end

