-- ==== Sys2Proof/Config.lean ====
section
/-! DEFINITION. Config: what the spec takes as a parameter of the model (00_scope.md R7), and the free values. -/

namespace Sys2Proof

/-- The configuration constants `KCAL` of 42_calibration.md R142, one field per named constant. -/
structure KCal where
  tOff : F64
  tScale : F64
  milli : F64
  i52U1Div : F64
  i52U2Off : F64
  i52U2Div : F64
  i33U1Off : F64
  i33U1Div : F64
  i33U2Off : F64
  i33U2Div : F64
  i28Off : F64
  i28Div : F64
  deriving DecidableEq, Repr, Inhabited

/-- The configuration field `fpEval` of 93_implementation_defined.md section 1, log 8.
`d7`: binary64, nearest-even, left to right, one rounding per operation (R11, R141, decision D7), the default.
`other`: an implementation that orders or rounds otherwise; its results are free values (`Config.otherScaled`,
`Config.otherFormula`). -/
inductive FpEval where
  | d7
  | other
  deriving DecidableEq, Repr, Inhabited

/-- The transfer functions of R142. The plain scaling `v` of R141 is none of them: it reads no constant of `KCAL`. -/
inductive Formula where
  | temp
  | i52U1
  | i52U2
  | i33U1
  | i33U2
  | i28
  deriving DecidableEq, Repr, Inhabited

/-- The four binary64 operations of R11. -/
inductive FpOp where
  | add
  | sub
  | mul
  | div
  deriving DecidableEq, Repr, Inhabited

/-- The parameters of R7. They are fixed for a run: no operation writes them. `N_LANES` is unbounded (R7, R191)
and needs no field. -/
structure Config where
  /-- `ADDR_W`: the width in bits of LEN and CUR (R7, D4). -/
  addrW : Nat
  /-- `FULL_SCALE_SCI`: the science digitizer's full-scale voltage (R7, R30, D5). -/
  fullScaleSci : F64
  /-- `VPC_HK`: what the host passes to CALIBRATE for housekeeping samples (R7, D6). Only host programs read it. -/
  vpcHk : F64
  /-- `KCAL` (R142, D25). -/
  kcal : KCal
  /-- How floating point is evaluated (93_implementation_defined.md section 1, D7). -/
  fpEval : FpEval
  deriving DecidableEq, Repr, Inhabited

/-- FREE VALUE, log 7: the hardware's `ADDR_W`, OPEN in the spec (R7, D4). -/
opaque Config.openAddrW : Nat

/-- FREE VALUE, log 7: the hardware's `FULL_SCALE_SCI`, OPEN in the spec (R7, D5). -/
opaque Config.openFullScaleSci : F64

/-- FREE VALUE, log 7: the host's `VPC_HK`, OPEN in the spec (R7, D6). -/
opaque Config.openVpcHk : F64

/-- FREE VALUE, log 9: sign and payload of the NaN an operation returns; "A NaN result's payload is not fixed by the
spec" (95_test_vectors.md section 2.4). A function of the operation and its operands, since results depend on the
operands alone (R122, R163). -/
opaque Config.nanBits : FpOp → F64 → F64 → BitVec 53

/-- FREE VALUE, log 8: the scaled value of a count and a volts-per-count under `FpEval.other`. It has no `KCAL` argument:
a science channel depends on the frame and `VPC_SCI` alone (R122). -/
opaque Config.otherScaled : U16 → F64 → F64

/-- FREE VALUE, log 8: the result of a transfer function on a raw count and a volts-per-count under `FpEval.other`. -/
opaque Config.otherFormula : Formula → KCal → U16 → F64 → F64

end Sys2Proof
end

