-- ==== Sys2Proof/Machine/Float.lean ====
section
/-! DEFINITION. Float: IEEE 754 binary64 arithmetic, round to nearest, ties to even (00_scope.md R11, decision D7).
Each operation is computed exactly on naturals and narrowed once, by `roundRat`. The IEEE cases of zeros, infinities and
NaNs are PRESUMED from IEEE 754, log 10. -/

namespace Sys2Proof.Machine

/-- The sign bit. -/
def f64Sign (a : F64) : Bool := a.getLsbD 63

/-- The 11-bit biased exponent. -/
def f64Exp (a : F64) : Nat := (a.toNat / 2 ^ 52) % 2 ^ 11

/-- The 52-bit fraction. -/
def f64Frac (a : F64) : Nat := a.toNat % 2 ^ 52

/-- Not a number: exponent all ones, fraction not zero. -/
def f64IsNaN (a : F64) : Bool := f64Exp a == 2047 && f64Frac a != 0

/-- An infinity: exponent all ones, fraction zero. -/
def f64IsInf (a : F64) : Bool := f64Exp a == 2047 && f64Frac a == 0

/-- A zero of either sign. -/
def f64IsZero (a : F64) : Bool := f64Exp a == 0 && f64Frac a == 0

/-- A finite value: exponent not all ones. -/
def f64IsFinite (a : F64) : Bool := f64Exp a != 2047

/-- The magnitude of a finite value in units of `2^-1074`, the least subnormal: every finite binary64 is a whole number of
them. -/
def f64Units (a : F64) : Nat :=
  if f64Exp a = 0 then f64Frac a else (2 ^ 52 + f64Frac a) <<< (f64Exp a - 1)

/-- A finite value as a signed whole number of units of `2^-1074`. -/
def f64Int (a : F64) : Int := if f64Sign a then -(f64Units a : Int) else (f64Units a : Int)

/-- A sign and the 63 bits below it. -/
def f64Pack (s : Bool) (low : Nat) : F64 := BitVec.ofBool s ++ BitVec.ofNat 63 low

/-- The infinity of a sign. -/
def f64Inf (s : Bool) : F64 := f64Pack s (2047 <<< 52)

/-- The zero of a sign. -/
def f64Zero (s : Bool) : F64 := f64Pack s 0

/-- The negation: the sign bit flipped. -/
def f64Neg (a : F64) : F64 := f64Pack (!f64Sign a) (a.toNat % 2 ^ 63)

/-- The NaN an operation returns: which one is free (`Config.nanBits`, log 9); the low bit of a zero payload is set, so that
it is a NaN whatever the free bits are. -/
def f64NaN (op : FpOp) (a b : F64) : F64 :=
  let bits := Config.nanBits op a b
  let payload : BitVec 52 := bits.extractLsb' 0 52
  BitVec.ofBool (bits.getLsbD 52) ++ (2047 : BitVec 11) ++ (if payload = 0 then (1 : BitVec 52) else payload)

/-- `n / d` rounded to a natural, ties to even. -/
def divHalfEven (n d : Nat) : Nat :=
  let q := n / d
  let r := n % d
  if 2 * r < d then q
  else if d < 2 * r then q + 1
  else if q % 2 = 0 then q else q + 1

/-- The binary64 nearest `n / d` (`d` not 0) with sign `s`, ties to even (R11). `e` is the exponent step: the quotient is
rounded to a multiple of `2^e` units of `2^-1074`, so that it keeps 53 significant bits (fewer below the normal range).
The significand and the step add up to the encoding, a carry included; past the largest finite value stands infinity. -/
def roundRat (s : Bool) (n d : Nat) : F64 :=
  let units := (n <<< 1074) / d
  let e := Nat.log2 units - 52
  let low := (e <<< 52) + divHalfEven (n <<< 1074) (d <<< e)
  if low < 2047 <<< 52 then f64Pack s low else f64Inf s

/-- `to_f64(n)` (R11): exact for every value of this spec. -/
def toF64 (n : Nat) : F64 := roundRat false n 1

/-- `lit("d")` of a decimal literal `digits / 10^places` (R11). -/
def litF64 (digits places : Nat) : F64 := roundRat false digits (10 ^ places)

/-- A signed number of units of `2^-1074` rounded to binary64; an exact zero takes the sign `zeroSign`. -/
def roundUnits (zeroSign : Bool) (z : Int) : F64 :=
  if z = 0 then f64Zero zeroSign else roundRat (decide (z < 0)) z.natAbs (1 <<< 1074)

/-- The sum of `a` and `b`, `nan` being the NaN to return where the sum is one. An exact zero is +0 but for two negative
operands (round to nearest). -/
def addCases (nan a b : F64) : F64 :=
  if f64IsNaN a || f64IsNaN b then nan
  else if f64IsInf a then
    if f64IsInf b && f64Sign a != f64Sign b then nan else f64Inf (f64Sign a)
  else if f64IsInf b then f64Inf (f64Sign b)
  else roundUnits (f64Sign a && f64Sign b) (f64Int a + f64Int b)

/-- `fadd` (R11). -/
def fadd (a b : F64) : F64 := addCases (f64NaN .add a b) a b

/-- `fsub` (R11): the sum with the second operand negated. -/
def fsub (a b : F64) : F64 := addCases (f64NaN .sub a b) a (f64Neg b)

/-- `fmul` (R11): infinity times zero is a NaN. -/
def fmul (a b : F64) : F64 :=
  let s := f64Sign a != f64Sign b
  if f64IsNaN a || f64IsNaN b then f64NaN .mul a b
  else if f64IsInf a || f64IsInf b then
    if f64IsZero a || f64IsZero b then f64NaN .mul a b else f64Inf s
  else roundRat s (f64Units a * f64Units b) (1 <<< 2148)

/-- `fdiv` (R11): 0/0 and infinity/infinity are NaNs, a finite value over zero is an infinity. -/
def fdiv (a b : F64) : F64 :=
  let s := f64Sign a != f64Sign b
  if f64IsNaN a || f64IsNaN b then f64NaN .div a b
  else if f64IsInf a then
    if f64IsInf b then f64NaN .div a b else f64Inf s
  else if f64IsInf b then f64Zero s
  else if f64IsZero b then
    if f64IsZero a then f64NaN .div a b else f64Inf s
  else roundRat s (f64Units a) (f64Units b)

end Sys2Proof.Machine
end

