-- ==== Sys2Proof/Machine/Constants.lean ====
section
/-! DEFINITION. Constants: the default constant table `KCAL` and the configuration of the hardware
(42_calibration.md R142; 00_scope.md R7). -/

namespace Sys2Proof.Machine

/-- `KCAL` with the values the source gives (R142), by their binary64 bits; unaudited, log 11. -/
def kcalSource : KCal where
  tOff := 0x4005D70A3D70A3D7      -- 2.73
  tScale := 0x4059000000000000    -- 100
  milli := 0x408F400000000000     -- 1000
  i52U1Div := 0x4032000000000000  -- 18
  i52U2Off := 0x3FF210624DD2F1AA  -- 1.129
  i52U2Div := 0x403574BC6A7EF9DB  -- 21.456
  i33U1Off := 0x3F923A29C779A6B5  -- 0.0178
  i33U1Div := 0x402243126E978D50  -- 9.131
  i33U2Off := 0x3F9DB22D0E560419  -- 0.029
  i33U2Div := 0x4032000000000000  -- 18
  i28Off := 0x3F7E98DCDB37C99B    -- 0.00747
  i28Div := 0x4031F0A3D70A3D71    -- 17.94

/-- The configuration a run starts with: the OPEN parameters of R7 stay open (log 7), `KCAL` and `fpEval` have their
defaults (logs 11 and 8). -/
def hardwareConfig : Config where
  addrW := Config.openAddrW
  fullScaleSci := Config.openFullScaleSci
  vpcHk := Config.openVpcHk
  kcal := kcalSource
  fpEval := .d7

/-- `65536.0` (R7). -/
def f64TwoPow16 : F64 := 0x40F0000000000000

/-- `VPC_SCI = fdiv(FULL_SCALE_SCI, 65536.0)` (R7, R30). -/
def vpcSci (cfg : Config) : F64 := fdiv cfg.fullScaleSci f64TwoPow16

end Sys2Proof.Machine
end

