-- ==== Sys2Proof/Machine/State.lean ====
section
/-! DEFINITION. State: the state vector of 10_state.md R20, the records the operations return, and the reset state
(R38, 70_reset_and_hazards.md R200). -/

namespace Sys2Proof.Machine

/-- Why the machine stops. -/
inductive Fault where
  /-- Raised by STEP and NEXT (and the rows SYNC and NOSYNC) when the window or frame read meets an offset where BUF holds
  no byte. No such offset is below LEN in a state a run reaches (20_memory.md R59). Safe: the machine stops where the spec
  gives no byte, log 6. -/
  | bufferHole (off : Nat)
  deriving DecidableEq, Repr

/-- Why an instruction has no meaning. -/
inductive Refusal where
  /-- Raised by `exec` for an instruction without a meaning yet; no arm does. Safe. -/
  | notModelled (mnemonic : String)
  deriving DecidableEq, Repr

/-- The reasons of the sticky mark FAULT (60_exceptions.md R185). -/
inductive FaultReason where
  /-- `NO_BUFFER`: STEP, NEXT or RESTART while LOADED = 0. -/
  | noBuffer
  /-- `RESERVED_COMMAND`: a code outside 30_encoding.md R82. -/
  | reservedCommand
  /-- `OPERAND_RANGE`: a LOAD longer than `2^ADDR_W - 1`. -/
  | operandRange
  deriving DecidableEq, Repr

/-- The events of the model-only history HIST (R29). -/
inductive Event where
  | load (n : Nat)
  | restart
  | emit (off : Nat) (f : RawFrame)
  | skip (off : Nat)
  | ended (off : Nat)
  deriving DecidableEq, Repr

/-- A ScienceSample (R32). -/
structure ScienceSample where
  isCommanded : Bool
  timestamp : U32
  channel1 : F64
  channel2 : F64
  channel3 : F64
  channel4 : F64
  deriving DecidableEq, Repr

/-- A HousekeepingSample (R33). -/
structure HousekeepingSample where
  timestamp : U32
  hkId : Byte
  hkValueRaw : U16
  deltaEventCount : U16
  deltaDropEventCount : U16
  deltaLostEventCount : U16
  deriving DecidableEq, Repr

/-- The result an operation returns: its status and payload (60_exceptions.md R181). -/
inductive Result where
  /-- `OK(cur)` of LOAD and RESTART. -/
  | okCur (cur : Nat)
  /-- `OK(sample)` of DECODE_SCI. -/
  | okSci (s : ScienceSample)
  /-- `OK(sample)` of DECODE_HK. -/
  | okHk (s : HousekeepingSample)
  /-- `OK(value)` of CALIBRATE, a CalibratedValue (R35). -/
  | okValue (y : F64)
  /-- `EMITTED(frame, cur)`. -/
  | emitted (f : RawFrame) (cur : Nat)
  /-- `SKIPPED(cur)`. -/
  | skipped (cur : Nat)
  /-- `END(cur)`. -/
  | ended (cur : Nat)
  /-- `NO_SAMPLE`. -/
  | noSample
  /-- `UNKNOWN_CHANNEL`. -/
  | unknownChannel
  deriving DecidableEq, Repr

/-- An operation the host has issued: the host's own tag, by which it knows the result again (log 15), and the operation. -/
structure HostRequest where
  tag : Nat
  word : HostWord
  deriving DecidableEq, Repr

/-- A result returned to the host, with the tag of the operation it answers (log 15). -/
structure Completion where
  tag : Nat
  result : Result
  deriving DecidableEq, Repr

/-- BUF as a list of (offset, byte), offsets strictly rising; an unlisted offset holds no byte (R22, R38, log 6). -/
abbrev Memory := List Host.Cell

/-- The state of the block (R20), the configuration it runs under (log 7) and the host interface (logs 1, 2, 15). -/
structure State where
  /-- The parameters of 00_scope.md R7; no operation writes them. -/
  cfg : Config
  /-- `BUF` (R22). -/
  buf : Memory
  /-- `LEN`, a natural below `2^ADDR_W` (R23). -/
  len : Nat
  /-- `LOADED` (R24). -/
  loaded : Bool
  /-- `CUR`, the program-counter analogue, a natural (R25, R26). -/
  cur : Nat
  /-- `FAULT`, sticky, model-only (R20, R185). -/
  faultMark : Option FaultReason
  /-- `HIST`, oldest first, model-only (R29). -/
  hist : List Event
  /-- MODEL: the operations the host has issued and the block has not taken, oldest first (R61, log 1). -/
  inbox : List HostRequest
  /-- MODEL: which waiting lane operation completes at each coming step; exhausted, the oldest (R62, log 2). -/
  laneOrder : List Nat
  /-- MODEL: the tag of the operation in progress (log 15). -/
  active : Nat
  /-- MODEL: the results returned, oldest first (R61, R181, log 15). -/
  results : List Completion
  deriving DecidableEq, Repr

/-- The state right after reset (R38, R200): CUR = 0, LOADED = 0, HIST empty, no fault recorded. LEN and BUF "hold no
value": LEN is 0 here (log 5) and no byte of BUF is listed (log 6). The host has issued nothing (log 22). -/
def State.reset : State where
  cfg := hardwareConfig
  buf := []
  len := 0
  loaded := false
  cur := 0
  faultMark := none
  hist := []
  inbox := []
  laneOrder := []
  active := 0
  results := []

end Sys2Proof.Machine
end

