-- ==== Sys2Proof/Machine/Ops.lean ====
section
/-! DEFINITION. Ops: the operations over BUF, HIST, FAULT and the results that every meaning is written with. -/

namespace Sys2Proof.Machine

/-- The canonical form of BUF: offsets strictly rising (an unlisted offset holds no byte, so no entry can equal it). -/
def Memory.wf : Memory → Bool
  | [] => true
  | [_] => true
  | (a, _) :: (b, y) :: rest => decide (a < b) && Memory.wf ((b, y) :: rest)

/-- The byte at an offset; none where BUF holds no byte (log 6). -/
def readByte (m : Memory) (off : Nat) : Option Byte := m.lookup off

/-- `Bytes(off, n)`: the byte sequence `BUF[off..off+n)` (00_scope.md R12); none when one of them is no byte of BUF. -/
def readBytes (m : Memory) (off : Nat) : Nat → Option (List Byte)
  | 0 => some []
  | n + 1 =>
    match readByte m off, readBytes m (off + 1) n with
    | some b, some bs => some (b :: bs)
    | _, _ => none

/-- The memory that holds a byte sequence from an offset on, and nothing else (LOAD's `BUF <- b` from offset 0, R100). -/
def memoryOf (off : Nat) : List Byte → Memory
  | [] => []
  | b :: bs => (off, b) :: memoryOf (off + 1) bs

/-- `n <= 2^ADDR_W - 1` (R23, R100). The empty buffer fits every width, and is told apart first so that this can be
evaluated while ADDR_W is open. -/
def lenFits (cfg : Config) (b : List Byte) : Bool := b.isEmpty || decide (b.length ≤ 2 ^ cfg.addrW - 1)

/-- `record(e)` (00_scope.md R12): append to HIST (10_state.md R29). -/
def record (e : Event) (s : State) : State := { s with hist := s.hist ++ [e] }

/-- `return <Status>(payload)` (00_scope.md R12): the result goes to the host under the operation's tag (log 15). -/
def complete (r : Result) (s : State) : State := { s with results := s.results ++ [⟨s.active, r⟩] }

/-- `fault <Reason>` (00_scope.md R12; 60_exceptions.md R185): the sticky mark FAULT is set with its reason and nothing
else changes. The first reason stays (log 3). This is the block's whole exception mechanism: there are no traps, no saved
state, no handler and no return (R180, R189). -/
def recordFault (why : FaultReason) (s : State) : State :=
  match s.faultMark with
  | none => { s with faultMark := some why }
  | some _ => s

end Sys2Proof.Machine
end

