-- ==== Sys2Proof/Machine/Calibration.lean ====
section
/-! DEFINITION. Calibration: CALIBRATE, its transfer functions and the `cal_sel` rows (42_calibration.md R140 to R159). -/

namespace Sys2Proof.Machine

/-- `T_temp(v) = fmul(fsub(v, K_TOFF), K_TSCALE)` (R142). -/
def tTemp (k : KCal) (v : F64) : F64 := fmul (fsub v k.tOff) k.tScale

/-- `T_i52_u1(v) = fdiv(fmul(v, K_MILLI), K_I52_U1_DIV)` (R142). -/
def tI52U1 (k : KCal) (v : F64) : F64 := fdiv (fmul v k.milli) k.i52U1Div

/-- `T_i52_u2(v) = fdiv(fmul(fsub(v, K_I52_U2_OFF), K_MILLI), K_I52_U2_DIV)` (R142). -/
def tI52U2 (k : KCal) (v : F64) : F64 := fdiv (fmul (fsub v k.i52U2Off) k.milli) k.i52U2Div

/-- `T_i33_u1(v) = fdiv(fmul(fadd(v, K_I33_U1_OFF), K_MILLI), K_I33_U1_DIV)` (R142). -/
def tI33U1 (k : KCal) (v : F64) : F64 := fdiv (fmul (fadd v k.i33U1Off) k.milli) k.i33U1Div

/-- `T_i33_u2(v) = fdiv(fmul(fsub(v, K_I33_U2_OFF), K_MILLI), K_I33_U2_DIV)` (R142). -/
def tI33U2 (k : KCal) (v : F64) : F64 := fdiv (fmul (fsub v k.i33U2Off) k.milli) k.i33U2Div

/-- `T_i28(v) = fdiv(fmul(fadd(v, K_I28_OFF), K_MILLI), K_I28_DIV)` (R142), both units (R151). -/
def tI28 (k : KCal) (v : F64) : F64 := fdiv (fmul (fadd v k.i28Off) k.milli) k.i28Div

/-- The scaled value `v = fmul(to_f64(raw), vpc)` (R141). -/
def scaledValue (raw : U16) (vpc : F64) : F64 := fmul (toF64 raw.toNat) vpc

/-- The scaled value under the configured evaluation: decision D7 is the rule of R141; another evaluation's result is free,
a function of the two operands (R122; 93_implementation_defined.md section 1, log 8). -/
def evalScaled (cfg : Config) (raw : U16) (vpc : F64) : F64 :=
  match cfg.fpEval with
  | .d7 => scaledValue raw vpc
  | .other => Config.otherScaled raw vpc

/-- A transfer function on the scaled value, as R142 writes it. -/
def formulaOf (k : KCal) (v : F64) : Formula → F64
  | .temp => tTemp k v
  | .i52U1 => tI52U1 k v
  | .i52U2 => tI52U2 k v
  | .i33U1 => tI33U1 k v
  | .i33U2 => tI33U2 k v
  | .i28 => tI28 k v

/-- A transfer function on its operands under the configured evaluation: decision D7 is the rule of R141; another
evaluation's results are free, functions of the operands and `KCAL` (R163; 93_implementation_defined.md section 1, log 8). -/
def evalFormula (cfg : Config) (phi : Formula) (raw : U16) (vpc : F64) : F64 :=
  match cfg.fpEval with
  | .d7 => formulaOf cfg.kcal (scaledValue raw vpc) phi
  | .other => Config.otherFormula phi cfg.kcal raw vpc

/-- The passthrough `to_f64(raw)` of ids 11 to 13 (R154, R155, R156). -/
def passthrough (raw : U16) : F64 := toF64 raw.toNat

/-- CALIBRATE's result (R140): UNKNOWN_CHANNEL when `id[7:4]` is not 0, else the case of the id. -/
def calibrateResult (cfg : Config) (id : Byte) (raw : U16) (vpc : F64) (unit : HardwareUnit) : Result :=
  if id.extractLsb' 4 4 ≠ 0 then .unknownChannel
  else if id = 0 ∨ id = 1 ∨ id = 2 ∨ id = 3 then .okValue (evalFormula cfg .temp raw vpc)
  else if id = 4 then
    .okValue (evalFormula cfg (match unit with | .unit1 => .i52U1 | .unit2 => .i52U2) raw vpc)
  else if id = 6 then
    .okValue (evalFormula cfg (match unit with | .unit1 => .i33U1 | .unit2 => .i33U2) raw vpc)
  else if id = 8 then .okValue (evalFormula cfg .i28 raw vpc)
  else if id = 11 ∨ id = 12 ∨ id = 13 then .okValue (passthrough raw)
  else .okValue (evalScaled cfg raw vpc)

/-- CALIBRATE (R140): no state is read or written but the result's return (R163). -/
def execCalibrate (id : Byte) (raw : U16) (vpc : F64) (unit : HardwareUnit) (s : State) :
    Host.Outcome State Fault Refusal :=
  .next (complete (calibrateResult s.cfg id raw vpc unit) s)

/-- CAL_ID0: temperature; UNIT ignored (R143). -/
def execCalId0 (_unit : HardwareUnit) (raw : U16) (vpc : F64) (s : State) : Host.Outcome State Fault Refusal :=
  .next (complete (.okValue (evalFormula s.cfg .temp raw vpc)) s)

/-- CAL_ID1: temperature; UNIT ignored (R144). -/
def execCalId1 (_unit : HardwareUnit) (raw : U16) (vpc : F64) (s : State) : Host.Outcome State Fault Refusal :=
  .next (complete (.okValue (evalFormula s.cfg .temp raw vpc)) s)

/-- CAL_ID2: temperature; UNIT ignored (R145). -/
def execCalId2 (_unit : HardwareUnit) (raw : U16) (vpc : F64) (s : State) : Host.Outcome State Fault Refusal :=
  .next (complete (.okValue (evalFormula s.cfg .temp raw vpc)) s)

/-- CAL_ID3: temperature; UNIT ignored (R146). -/
def execCalId3 (_unit : HardwareUnit) (raw : U16) (vpc : F64) (s : State) : Host.Outcome State Fault Refusal :=
  .next (complete (.okValue (evalFormula s.cfg .temp raw vpc)) s)

/-- CAL_ID4_U1: +5.2 V current monitor, Unit1 (R147). -/
def execCalId4U1 (raw : U16) (vpc : F64) (s : State) : Host.Outcome State Fault Refusal :=
  .next (complete (.okValue (evalFormula s.cfg .i52U1 raw vpc)) s)

/-- CAL_ID4_U2: +5.2 V current monitor, Unit2 (R147). -/
def execCalId4U2 (raw : U16) (vpc : F64) (s : State) : Host.Outcome State Fault Refusal :=
  .next (complete (.okValue (evalFormula s.cfg .i52U2 raw vpc)) s)

/-- CAL_ID5: +10 V current monitor; UNIT ignored (R148). -/
def execCalId5 (_unit : HardwareUnit) (raw : U16) (vpc : F64) (s : State) : Host.Outcome State Fault Refusal :=
  .next (complete (.okValue (evalScaled s.cfg raw vpc)) s)

/-- CAL_ID6_U1: +3.3 V current monitor, Unit1 (R149). -/
def execCalId6U1 (raw : U16) (vpc : F64) (s : State) : Host.Outcome State Fault Refusal :=
  .next (complete (.okValue (evalFormula s.cfg .i33U1 raw vpc)) s)

/-- CAL_ID6_U2: +3.3 V current monitor, Unit2 (R149). -/
def execCalId6U2 (raw : U16) (vpc : F64) (s : State) : Host.Outcome State Fault Refusal :=
  .next (complete (.okValue (evalFormula s.cfg .i33U2 raw vpc)) s)

/-- CAL_ID7: anode voltage monitor; UNIT ignored (R150). -/
def execCalId7 (_unit : HardwareUnit) (raw : U16) (vpc : F64) (s : State) : Host.Outcome State Fault Refusal :=
  .next (complete (.okValue (evalScaled s.cfg raw vpc)) s)

/-- CAL_ID8_U1: +28 V current monitor, Unit1 (R151). -/
def execCalId8U1 (raw : U16) (vpc : F64) (s : State) : Host.Outcome State Fault Refusal :=
  .next (complete (.okValue (evalFormula s.cfg .i28 raw vpc)) s)

/-- CAL_ID8_U2: +28 V current monitor, Unit2 (R151). -/
def execCalId8U2 (raw : U16) (vpc : F64) (s : State) : Host.Outcome State Fault Refusal :=
  .next (complete (.okValue (evalFormula s.cfg .i28 raw vpc)) s)

/-- CAL_ID9: ADC ground; UNIT ignored (R152). -/
def execCalId9 (_unit : HardwareUnit) (raw : U16) (vpc : F64) (s : State) : Host.Outcome State Fault Refusal :=
  .next (complete (.okValue (evalScaled s.cfg raw vpc)) s)

/-- CAL_ID10: command count; UNIT ignored (R153). -/
def execCalId10 (_unit : HardwareUnit) (raw : U16) (vpc : F64) (s : State) : Host.Outcome State Fault Refusal :=
  .next (complete (.okValue (evalScaled s.cfg raw vpc)) s)

/-- CAL_ID11: pin-puller armed, a passthrough; `vpc` and UNIT ignored (R154). -/
def execCalId11 (_unit : HardwareUnit) (raw : U16) (_vpc : F64) (s : State) : Host.Outcome State Fault Refusal :=
  .next (complete (.okValue (passthrough raw)) s)

/-- CAL_ID12: unused, a passthrough; `vpc` and UNIT ignored (R155). -/
def execCalId12 (_unit : HardwareUnit) (raw : U16) (_vpc : F64) (s : State) : Host.Outcome State Fault Refusal :=
  .next (complete (.okValue (passthrough raw)) s)

/-- CAL_ID13: unused, a passthrough; `vpc` and UNIT ignored (R156). -/
def execCalId13 (_unit : HardwareUnit) (raw : U16) (_vpc : F64) (s : State) : Host.Outcome State Fault Refusal :=
  .next (complete (.okValue (passthrough raw)) s)

/-- CAL_ID14: MCP HV auto; UNIT ignored (R157). -/
def execCalId14 (_unit : HardwareUnit) (raw : U16) (vpc : F64) (s : State) : Host.Outcome State Fault Refusal :=
  .next (complete (.okValue (evalScaled s.cfg raw vpc)) s)

/-- CAL_ID15: MCP HV manual; UNIT ignored (R158). -/
def execCalId15 (_unit : HardwareUnit) (raw : U16) (vpc : F64) (s : State) : Host.Outcome State Fault Refusal :=
  .next (complete (.okValue (evalScaled s.cfg raw vpc)) s)

/-- CAL_UNKNOWN_a: ids 128-255 return UNKNOWN_CHANNEL; nothing is computed (R159). -/
def execCalUnknownA (_unit : HardwareUnit) (_low : BitVec 7) (_raw : U16) (_vpc : F64) (s : State) :
    Host.Outcome State Fault Refusal :=
  .next (complete .unknownChannel s)

/-- CAL_UNKNOWN_b: ids 64-127 return UNKNOWN_CHANNEL; nothing is computed (R159). -/
def execCalUnknownB (_unit : HardwareUnit) (_low : BitVec 6) (_raw : U16) (_vpc : F64) (s : State) :
    Host.Outcome State Fault Refusal :=
  .next (complete .unknownChannel s)

/-- CAL_UNKNOWN_c: ids 32-63 return UNKNOWN_CHANNEL; nothing is computed (R159). -/
def execCalUnknownC (_unit : HardwareUnit) (_low : BitVec 5) (_raw : U16) (_vpc : F64) (s : State) :
    Host.Outcome State Fault Refusal :=
  .next (complete .unknownChannel s)

/-- CAL_UNKNOWN_d: ids 16-31 return UNKNOWN_CHANNEL; nothing is computed (R159). -/
def execCalUnknownD (_unit : HardwareUnit) (_low : BitVec 4) (_raw : U16) (_vpc : F64) (s : State) :
    Host.Outcome State Fault Refusal :=
  .next (complete .unknownChannel s)

end Sys2Proof.Machine
end

