-- ==== Sys2Proof/Machine/Decoders.lean ====
section
/-! DEFINITION. Decoders: DECODE_SCI, DECODE_HK and the `frame_w1` rows (41_parsers.md R120, R121). -/

namespace Sys2Proof.Machine

/-- The voltage of one ADC count: `fmul(to_f64(Hk), VPC_SCI)` (30_encoding.md R79). -/
def sciChannel (cfg : Config) (count : U16) : F64 := evalScaled cfg count (vpcSci cfg)

/-- The ScienceSample of a frame; `W0` and `W1[31]` are ignored (R120). -/
def sciSample (cfg : Config) (f : RawFrame) : ScienceSample where
  isCommanded := w1Cmd (frameW1 f)
  timestamp := w1Ts (frameW1 f)
  channel1 := sciChannel cfg (frameH0 f)
  channel2 := sciChannel cfg (frameH1 f)
  channel3 := sciChannel cfg (frameH2 f)
  channel4 := sciChannel cfg (frameH3 f)

/-- The HousekeepingSample of a frame; `W0` and `W1[30]` are ignored (R121). -/
def hkSample (f : RawFrame) : HousekeepingSample where
  timestamp := w1Ts (frameW1 f)
  hkId := (h0Id (frameH0 f)).setWidth 8
  hkValueRaw := hkRaw (h0Id (frameH0 f)) (h0Val12 (frameH0 f))
  deltaEventCount := frameH1 f
  deltaDropEventCount := frameH2 f
  deltaLostEventCount := frameH3 f

/-- Return a science sample (R120): status always OK. -/
def sciReturn (f : RawFrame) (s : State) : State := complete (.okSci (sciSample s.cfg f)) s

/-- Return a housekeeping sample (R121). -/
def hkReturn (f : RawFrame) (s : State) : State := complete (.okHk (hkSample f)) s

/-- The row HK_FRAME: DECODE_HK of a frame with `HKT = 1` returns its sample (R121). -/
def execHkFrame (f : RawFrame) (s : State) : Host.Outcome State Fault Refusal := .next (hkReturn f s)

/-- The row NON_HK_FRAME: DECODE_HK of a frame with `HKT = 0` returns NO_SAMPLE, whatever `H0..H3` hold (R121). -/
def execNonHkFrame (_f : RawFrame) (s : State) : Host.Outcome State Fault Refusal :=
  .next (complete .noSample s)

/-- The row SCI_ANY_W1: DECODE_SCI of a frame with any `W1` (R92, R125). -/
def execSciAnyW1 (f : RawFrame) (s : State) : Host.Outcome State Fault Refusal := .next (sciReturn f s)

/-- DECODE_SCI (R120): checks no kind bit and decodes every frame (30_encoding.md R80). -/
def execDecodeSci (f : RawFrame) (s : State) : Host.Outcome State Fault Refusal := .next (sciReturn f s)

/-- DECODE_HK (R121): the kind test comes first (60_exceptions.md R188). -/
def execDecodeHk (f : RawFrame) (s : State) : Host.Outcome State Fault Refusal :=
  if frameHkt f then .next (hkReturn f s) else .next (complete .noSample s)

end Sys2Proof.Machine
end

