-- ==== Sys2Proof/Machine/Flags.lean ====
section
/-! DEFINITION. Flags: the block has no flags (10_state.md R28); here stand the one derived predicate, DONE, and the result
statuses with their codes (60_exceptions.md R181). -/

namespace Sys2Proof.Machine

/-- The stop test `CUR + 16 > LEN`, on naturals (R26, R102). -/
def atEnd (s : State) : Bool := decide (s.len < s.cur + 16)

/-- `DONE(S) = (LOADED = 1) and (CUR + 16 > LEN)` (R28): derived, not stored. -/
def doneFlag (s : State) : Bool := s.loaded && atEnd s

/-- The result statuses (R181). -/
inductive Status where
  | ok
  | emitted
  | skipped
  | ended
  | noSample
  | unknownChannel
  deriving DecidableEq, Repr

/-- The status of a result (R181). -/
def statusOf : Result → Status
  | .okCur _ => .ok
  | .okSci _ => .ok
  | .okHk _ => .ok
  | .okValue _ => .ok
  | .emitted _ _ => .emitted
  | .skipped _ => .skipped
  | .ended _ => .ended
  | .noSample => .noSample
  | .unknownChannel => .unknownChannel

/-- The numeric code of a status (R181, D13). -/
def statusCode : Status → Nat
  | .ok => 0
  | .emitted => 1
  | .skipped => 2
  | .ended => 3
  | .noSample => 4
  | .unknownChannel => 5

/-- Only UNKNOWN_CHANNEL is an error, "fatal to that sample only" (R181). -/
def statusIsError : Status → Bool
  | .unknownChannel => true
  | .ok => false
  | .emitted => false
  | .skipped => false
  | .ended => false
  | .noSample => false

end Sys2Proof.Machine
end

