-- ==== Sys2Proof/Machine/Scanner.lean ====
section
/-! DEFINITION. Scanner: LOAD, RESTART, STEP, NEXT and the window rows SYNC and NOSYNC (40_scanner.md R100 to R103). -/

namespace Sys2Proof.Machine

/-- What examining one cursor position comes to, with the state it leaves, before a result is returned (R102). -/
inductive Scan where
  /-- LOADED = 0: nothing is examined. -/
  | noBuffer
  /-- The window or frame read met an offset with no byte (log 6). -/
  | hole (off : Nat)
  | emitted (f : RawFrame) (s : State)
  | skipped (s : State)
  | ended (s : State)

/-- The stop branch of STEP: `record(End(CUR))`, CUR unchanged (R102). -/
def scanEnd (s : State) : State := record (.ended s.cur) s

/-- The emit branch of STEP for the frame read at CUR: `record(Emit(CUR, f))`, then `CUR <- CUR + 16` (R102). -/
def scanEmit (f : RawFrame) (s : State) : State :=
  { record (.emit s.cur f) s with cur := s.cur + 16 }

/-- The skip branch of STEP: `record(Skip(CUR))`, then `CUR <- CUR + 1` (R102). -/
def scanSkip (s : State) : State := { record (.skip s.cur) s with cur := s.cur + 1 }

/-- The row SYNC: read the 16-byte frame at CUR, the marker being its first four bytes, and emit it (R102). -/
def rowSync (s : State) : Scan :=
  match readBytes s.buf s.cur 16 with
  | some bs => .emitted (frameOfBytes bs) (scanEmit (frameOfBytes bs) s)
  | none => .hole s.cur

/-- The row NOSYNC: skip one byte (R102). -/
def rowNosync (s : State) : Scan := .skipped (scanSkip s)

/-- The window test at CUR: the marker selects the row SYNC, any other window NOSYNC (R73, R87, R102). -/
def rowOfWindow (s : State) : Scan :=
  match readBytes s.buf s.cur 4 with
  | some bs => if windowOfBytes bs = marker then rowSync s else rowNosync s
  | none => .hole s.cur

/-- The tests that come before the window test, in the order of 60_exceptions.md R188: LOADED, then the stop test. -/
def scanGuard (row : State → Scan) (s : State) : Scan :=
  if !s.loaded then .noBuffer
  else if atEnd s then .ended (scanEnd s)
  else row s

/-- One STEP, its result not yet returned (R102). -/
def scanStep (s : State) : Scan := scanGuard rowOfWindow s

/-- NEXT's loop of STEPs (R103). The fuel is the number of positions that can still be skipped, `LEN - 15 - CUR` (R105):
when it is used up the stop test holds, so the last STEP answers END. -/
def scanNext : Nat → State → Scan
  | 0, s => scanStep s
  | fuel + 1, s =>
    match scanStep s with
    | .skipped s' => scanNext fuel s'
    | .noBuffer => .noBuffer
    | .hole off => .hole off
    | .emitted f s' => .emitted f s'
    | .ended s' => .ended s'

/-- Return the result of a scan begun in `s`: EMITTED, SKIPPED or END with the cursor after it (R102, R181), or the fault
NO_BUFFER with no other change (R185). -/
def scanFinish (s : State) : Scan → Host.Outcome State Fault Refusal
  | .noBuffer => .next (recordFault .noBuffer s)
  | .hole off => .fault (.bufferHole off)
  | .emitted f s' => .next (complete (.emitted f s'.cur) s')
  | .skipped s' => .next (complete (.skipped s'.cur) s')
  | .ended s' => .next (complete (.ended s'.cur) s')

/-- The row SYNC as an instruction: a STEP whose window is the marker (R102; log 12). -/
def execSync (s : State) : Host.Outcome State Fault Refusal := scanFinish s (scanGuard rowSync s)

/-- The row NOSYNC as an instruction: a STEP whose window is any other value (R87, R102; log 12). -/
def execNosync (_win : U32) (s : State) : Host.Outcome State Fault Refusal :=
  scanFinish s (scanGuard rowNosync s)

/-- LOAD: hand over a buffer and start a new scan (R100). -/
def execLoad (b : List Byte) (s : State) : Host.Outcome State Fault Refusal :=
  if lenFits s.cfg b then
    .next (complete (.okCur 0) (record (.load b.length)
      { s with buf := memoryOf 0 b, len := b.length, loaded := true, cur := 0 }))
  else .next (recordFault .operandRange s)

/-- RESTART: rescan the loaded buffer from offset 0 (R101). -/
def execRestart (s : State) : Host.Outcome State Fault Refusal :=
  if !s.loaded then .next (recordFault .noBuffer s)
  else .next (complete (.okCur 0) (record .restart { s with cur := 0 }))

/-- STEP: examine one cursor position (R102). -/
def execStep (s : State) : Host.Outcome State Fault Refusal := scanFinish s (scanStep s)

/-- NEXT: STEP until a frame is emitted or the scan ends; SKIPPED is never returned (R103). -/
def execNext (s : State) : Host.Outcome State Fault Refusal :=
  scanFinish s (scanNext (s.len - 15 - s.cur) s)

end Sys2Proof.Machine
end

