-- ==== Sys2Proof/Machine/Dispatch.lean ====
section
/-! DEFINITION. Dispatch: one arm per constructor of Instr, each one call of the meaning. -/

namespace Sys2Proof.Machine

def exec (i : Instr) (s : State) : Host.Outcome State Fault Refusal :=
  match i with
  | .sync => Sys2Proof.Machine.execSync s
  | .nosync win => Sys2Proof.Machine.execNosync win s
  | .hkFrame f => Sys2Proof.Machine.execHkFrame f s
  | .nonHkFrame f => Sys2Proof.Machine.execNonHkFrame f s
  | .sciAnyW1 f => Sys2Proof.Machine.execSciAnyW1 f s
  | .calId0 unit raw vpc => Sys2Proof.Machine.execCalId0 unit raw vpc s
  | .calId1 unit raw vpc => Sys2Proof.Machine.execCalId1 unit raw vpc s
  | .calId2 unit raw vpc => Sys2Proof.Machine.execCalId2 unit raw vpc s
  | .calId3 unit raw vpc => Sys2Proof.Machine.execCalId3 unit raw vpc s
  | .calId4U1 raw vpc => Sys2Proof.Machine.execCalId4U1 raw vpc s
  | .calId4U2 raw vpc => Sys2Proof.Machine.execCalId4U2 raw vpc s
  | .calId5 unit raw vpc => Sys2Proof.Machine.execCalId5 unit raw vpc s
  | .calId6U1 raw vpc => Sys2Proof.Machine.execCalId6U1 raw vpc s
  | .calId6U2 raw vpc => Sys2Proof.Machine.execCalId6U2 raw vpc s
  | .calId7 unit raw vpc => Sys2Proof.Machine.execCalId7 unit raw vpc s
  | .calId8U1 raw vpc => Sys2Proof.Machine.execCalId8U1 raw vpc s
  | .calId8U2 raw vpc => Sys2Proof.Machine.execCalId8U2 raw vpc s
  | .calId9 unit raw vpc => Sys2Proof.Machine.execCalId9 unit raw vpc s
  | .calId10 unit raw vpc => Sys2Proof.Machine.execCalId10 unit raw vpc s
  | .calId11 unit raw vpc => Sys2Proof.Machine.execCalId11 unit raw vpc s
  | .calId12 unit raw vpc => Sys2Proof.Machine.execCalId12 unit raw vpc s
  | .calId13 unit raw vpc => Sys2Proof.Machine.execCalId13 unit raw vpc s
  | .calId14 unit raw vpc => Sys2Proof.Machine.execCalId14 unit raw vpc s
  | .calId15 unit raw vpc => Sys2Proof.Machine.execCalId15 unit raw vpc s
  | .calUnknownA unit low raw vpc => Sys2Proof.Machine.execCalUnknownA unit low raw vpc s
  | .calUnknownB unit low raw vpc => Sys2Proof.Machine.execCalUnknownB unit low raw vpc s
  | .calUnknownC unit low raw vpc => Sys2Proof.Machine.execCalUnknownC unit low raw vpc s
  | .calUnknownD unit low raw vpc => Sys2Proof.Machine.execCalUnknownD unit low raw vpc s
  | .load b => Sys2Proof.Machine.execLoad b s
  | .restart => Sys2Proof.Machine.execRestart s
  | .step => Sys2Proof.Machine.execStep s
  | .next => Sys2Proof.Machine.execNext s
  | .decodeSci f => Sys2Proof.Machine.execDecodeSci f s
  | .decodeHk f => Sys2Proof.Machine.execDecodeHk f s
  | .calibrate id raw vpc unit => Sys2Proof.Machine.execCalibrate id raw vpc unit s

end Sys2Proof.Machine
end

