-- ==== Sys2Proof/Machine/Fetch.lean ====
section
/-! DEFINITION. Fetch: taking the next host operation (20_memory.md R61, R62; 60_exceptions.md R191, R192), and presenting a
table word to the block. -/

namespace Sys2Proof.Machine

/-- An operation of a stateless lane: DECODE_SCI, DECODE_HK or CALIBRATE (R6, R62). -/
def isLaneOp (r : HostRequest) : Bool := r.word.op == 0x10 || r.word.op == 0x11 || r.word.op == 0x20

/-- How many waiting operations, from the oldest on, are lane operations: these may complete in any order among
themselves (R62); no operation passes a scanner operation and a scanner operation passes none (R61). Log 2. -/
def laneCount (inbox : List HostRequest) : Nat := (inbox.takeWhile isLaneOp).length

/-- The position in the inbox of the operation that completes at this step: the one `laneOrder` names among the waiting lane
operations, else the oldest (R61, R62, log 2). -/
def pick (s : State) : Nat :=
  let k := s.laneOrder.headD 0
  if k < laneCount s.inbox then k else 0

/-- Take one operation from the inbox; none when the host has issued nothing. -/
def fetch (s : State) : Option (HostRequest × State) :=
  match s.inbox[pick s]? with
  | some r =>
    some (r, { s with inbox := s.inbox.eraseIdx (pick s), laneOrder := s.laneOrder.tail, active := r.tag })
  | none => none

/-- A reserved command code is refused: the fault RESERVED_COMMAND is recorded and nothing else changes (R83, R185). -/
def refuseCommand (s : State) : State := recordFault .reservedCommand s

/-- The host operation through which the block comes to decode a word of one of its formats (R82, R92): the window by
STEP, `W1` by a decoder, the selector by CALIBRATE. -/
def hostWordFor : Encoded → HostWord
  | .window _ => hostWordOf 0x03
  | .frameHk f => { hostWordOf 0x11 with frame := f }
  | .frameSci f => { hostWordOf 0x10 with frame := f }
  | .calSel sel raw vpc =>
    { hostWordOf 0x20 with
      id := selId sel, raw := raw, vpc := vpc, unit := HardwareUnit.ofBit (selUnitBit sel) }
  | .hostCmd w => w

/-- For a window word, the smallest buffer in which STEP meets it: its four bytes and twelve zero bytes, loaded, the cursor
at 0. Other words are operands of their operation and need no buffer (log 14). -/
def stageBuffer (e : Encoded) (s : State) : State :=
  match e with
  | .window w =>
    { s with buf := memoryOf 0 (windowBytes w ++ List.replicate 12 0), len := 16, loaded := true, cur := 0 }
  | .frameHk _ => s
  | .frameSci _ => s
  | .calSel _ _ _ => s
  | .hostCmd _ => s

/-- Make an operation, under a tag of the host's, the one the next step takes, before any that already wait in the inbox
(the model's choice, log 14 for a table word, log 19 for a host program). -/
def issueFirst (tag : Nat) (w : HostWord) (s : State) : State :=
  { s with inbox := ⟨tag, w⟩ :: s.inbox, laneOrder := 0 :: s.laneOrder }

/-- The state in which the next step runs the instruction of a table word (log 14). A word with no instruction is presented
as a command code. -/
def presentWord (nbits w : Nat) (s : State) : State :=
  match decodeTableWord nbits w with
  | some i => issueFirst s.active (hostWordFor (encode i)) (stageBuffer (encode i) s)
  | none => issueFirst s.active (hostWordOf (BitVec.ofNat 8 w)) s

end Sys2Proof.Machine
end

