-- ==== Sys2Proof/Machine/Step.lean ====
section
/-! DEFINITION. Step: one host operation, atomically (00_scope.md R5, 20_memory.md R61). -/

namespace Sys2Proof.Machine

/-- Take the next host operation, decode it and run it. With nothing issued the block is idle (70_reset_and_hazards.md R201).
The reserved-code test comes first (60_exceptions.md R188). -/
def step (s : State) : Host.Outcome State Fault Refusal :=
  match fetch s with
  | none => .next s
  | some (r, s') =>
    match decodeHostWord r.word with
    | .ok i => exec i s'
    | .error _ => .next (refuseCommand s')

/-- The state in which the very next step runs the instruction of a table word (log 14). -/
def State.withFetchWord (s : State) (nbits w : Nat) : State := presentWord nbits w s

end Sys2Proof.Machine
end

