-- ==== Sys2Proof/Machine/HostProgram.lean ====
section
/-! DEFINITION. HostProgram: the host's side of the interface: commands of a host program, the pseudo-instructions SCANALL
and HKCAL, and a full batch (30_encoding.md R89, R90; 40_scanner.md R104; 42_calibration.md R162;
70_reset_and_hazards.md R203). Nothing here is block state or a block operation; it only issues operations (log 19). -/

namespace Sys2Proof.Machine

/-- Go on from a next state; stop where the machine stops. -/
def andThen {α β : Type} (o : Host.Outcome α Fault Refusal) (k : α → Host.Outcome β Fault Refusal) :
    Host.Outcome β Fault Refusal :=
  match o with
  | .next a => k a
  | .fault r => .fault r
  | .refused r => .refused r

/-- The host issues one operation and waits for it (R61). The operation goes to the front of the inbox, so it is taken before
operations that already wait there, a LOAD among them: R61 does not treat a host program begun while others wait, and that it
passes them is the model's choice (log 19). With an empty inbox this is issue order. -/
def hostIssue (w : HostWord) (s : State) : Host.Outcome State Fault Refusal := step (issueFirst s.active w s)

/-- The result an operation returned, from the states before and after it; none when a fault was recorded instead (R180). -/
def answered (s t : State) : Option Result := (t.results.drop s.results.length).head?.map Completion.result

/-- NEXT repeated until a NEXT answers no frame (R104), at most `fuel` times. -/
def scanAllFrom : Nat → State → Host.Outcome (List RawFrame × State) Fault Refusal
  | 0, s => .next ([], s)
  | fuel + 1, s =>
    andThen (hostIssue (hostWordOf 0x04) s) fun t =>
      match answered s t with
      | some (.emitted f _) => andThen (scanAllFrom fuel t) fun r => .next (f :: r.1, r.2)
      | _ => .next ([], t)

/-- SCANALL (R104): the frames from the current CUR on, in emission order. Its NEXTs are taken before operations that already
wait in the inbox, which R104 does not treat (log 19). Frames are 16 bytes apart or more (R107), so
`LEN / 16 + 2` NEXTs reach END. -/
def scanAll (s : State) : Host.Outcome (List RawFrame × State) Fault Refusal := scanAllFrom (s.len / 16 + 2) s

/-- What HKCAL returns (R162). -/
inductive HkcalResult where
  | noSample
  | calibrated (sample : HousekeepingSample) (c : Option Result)
  deriving DecidableEq, Repr

/-- HKCAL (R162): DECODE_HK, then, of a sample, CALIBRATE of its id and raw value, both before operations that already wait
in the inbox (log 19). -/
def hkcal (f : RawFrame) (vpc : F64) (unit : HardwareUnit) (s : State) :
    Host.Outcome (HkcalResult × State) Fault Refusal :=
  andThen (hostIssue { hostWordOf 0x11 with frame := f } s) fun t =>
    match answered s t with
    | some (.okHk smp) =>
      andThen
        (hostIssue
          { hostWordOf 0x20 with id := smp.hkId, raw := smp.hkValueRaw, vpc := vpc, unit := unit } t)
        fun u => .next (.calibrated smp (answered t u), u)
    | _ => .next (.noSample, t)

/-- A frame operand of a host program: a literal, or `$k`, the frame of the k-th EMITTED result (R89). -/
inductive FrameArg where
  | lit (f : RawFrame)
  | emitted (k : Nat)
  deriving DecidableEq, Repr

/-- A command of a host program (R89), the pseudo-instructions included (R90). -/
inductive Command where
  | load (b : List Byte)
  | restart
  | step
  | next
  | decodeSci (f : FrameArg)
  | decodeHk (f : FrameArg)
  | calibrate (id : Byte) (raw : U16) (vpc : F64) (unit : HardwareUnit)
  | scanall
  | hkcal (f : FrameArg) (vpc : F64) (unit : HardwareUnit)
  deriving DecidableEq, Repr

/-- A running host program: the block, and the frames the host has kept (R89: "`$k` is resolved by the host"). -/
structure HostRun where
  block : State
  frames : List RawFrame
  deriving DecidableEq, Repr

/-- What one line of a host program came to. -/
inductive LineResult where
  /-- One operation's result; none when it recorded a fault. -/
  | one (r : Option Result)
  /-- SCANALL's list of frames. -/
  | scanned (frames : List RawFrame)
  /-- HKCAL's result. -/
  | hk (r : HkcalResult)
  /-- `$k` names a frame the program has not received: the host issues nothing (log 19). -/
  | unresolved (k : Nat)
  deriving DecidableEq, Repr

/-- The frame of an operand, from the frames the host has kept. -/
def frameOfArg (frames : List RawFrame) : FrameArg → Except Nat RawFrame
  | .lit f => .ok f
  | .emitted k =>
    match frames[k]? with
    | some f => .ok f
    | none => .error k

/-- Issue one operation; the host keeps the frame of an EMITTED result. -/
def runOne (w : HostWord) (h : HostRun) : Host.Outcome (LineResult × HostRun) Fault Refusal :=
  andThen (hostIssue w h.block) fun t =>
    match answered h.block t with
    | some (.emitted f cur) => .next (.one (some (.emitted f cur)), ⟨t, h.frames ++ [f]⟩)
    | r => .next (.one r, ⟨t, h.frames⟩)

/-- Run one command. -/
def runCommand (c : Command) (h : HostRun) : Host.Outcome (LineResult × HostRun) Fault Refusal :=
  match c with
  | .load b => runOne { hostWordOf 0x01 with bytes := b } h
  | .restart => runOne (hostWordOf 0x02) h
  | .step => runOne (hostWordOf 0x03) h
  | .next => runOne (hostWordOf 0x04) h
  | .decodeSci a =>
    match frameOfArg h.frames a with
    | .ok f => runOne { hostWordOf 0x10 with frame := f } h
    | .error k => .next (.unresolved k, h)
  | .decodeHk a =>
    match frameOfArg h.frames a with
    | .ok f => runOne { hostWordOf 0x11 with frame := f } h
    | .error k => .next (.unresolved k, h)
  | .calibrate id raw vpc unit =>
    runOne { hostWordOf 0x20 with id := id, raw := raw, vpc := vpc, unit := unit } h
  | .scanall =>
    andThen (scanAll h.block) fun r => .next (.scanned r.1, ⟨r.2, h.frames ++ r.1⟩)
  | .hkcal a vpc unit =>
    match frameOfArg h.frames a with
    | .ok f => andThen (hkcal f vpc unit h.block) fun r => .next (.hk r.1, ⟨r.2, h.frames⟩)
    | .error k => .next (.unresolved k, h)

/-- Run a program's commands in order, with the results of its lines; operations that waited in the inbox before it still wait
after it (log 19). -/
def runProgram : List Command → HostRun → Host.Outcome (List LineResult × HostRun) Fault Refusal
  | [], h => .next ([], h)
  | c :: cs, h =>
    andThen (runCommand c h) fun r =>
      andThen (runProgram cs r.2) fun q => .next (r.1 :: q.1, q.2)

/-- Which decoder the host sends a frame to (41_parsers.md R125): its choice, D11. -/
inductive Route where
  | sci
  | hk
  deriving DecidableEq, Repr

/-- A full batch (R203): LOAD, SCANALL, then each frame in scan order to the decoder the host chose, housekeeping samples
calibrated with the host's `vpc` (its `VPC_HK`, D6) and `unit`. -/
def batchProgram (b : List Byte) (routes : List Route) (vpc : F64) (unit : HardwareUnit) : List Command :=
  [.load b, .scanall] ++ routes.mapIdx fun k r =>
    match r with
    | .sci => .decodeSci (.emitted k)
    | .hk => .hkcal (.emitted k) vpc unit

/-- A batch under the configuration's `VPC_HK` (R203, D6). -/
def runBatch (b : List Byte) (routes : List Route) (unit : HardwareUnit) (s : State) :
    Host.Outcome (List LineResult × HostRun) Fault Refusal :=
  runProgram (batchProgram b routes s.cfg.vpcHk unit) ⟨s, []⟩

end Sys2Proof.Machine
end

