-- ==== Sys2Proof/Machine/TestEncoder.lean ====
section
/-! DEFINITION. TestEncoder: the test-only encoder ENC_SCI (41_parsers.md R127). "It is not an operation of the block";
no definition of the machine uses it (log 23). -/

namespace Sys2Proof.Machine

/-- `qk = min(65535, max(0, round_half_even(channelk / vpc)))` for finite operands, `vpc` positive, the quotient exact (R127). -/
def encCount (channel vpc : F64) : U16 :=
  if f64Int channel < 0 then 0
  else BitVec.ofNat 16 (min 65535 (divHalfEven (f64Units channel) (f64Units vpc)))

/-- `ENC_SCI(s, vpc)` (R127). -/
def encSci (s : ScienceSample) (vpc : F64) : RawFrame :=
  frameOfFields marker
    (BitVec.ofBool false ++ BitVec.ofBool s.isCommanded ++ s.timestamp.extractLsb' 0 30)
    (encCount s.channel1 vpc) (encCount s.channel2 vpc) (encCount s.channel3 vpc) (encCount s.channel4 vpc)

end Sys2Proof.Machine
end

