-- ==== Sys2Proof/Safety.lean ====
section
/-! DEFINITION. Safety: what claims are stated in: good states, the invariants of a run, the replay of HIST, and the scan of
a byte sequence (10_state.md R26, R29; 40_scanner.md R105 to R110; 60_exceptions.md R185). -/

namespace Sys2Proof.Machine

/-- A good state: no fault is recorded ("a state with FAULT set is never a good final state", R185). -/
def good (s : State) : Prop := s.faultMark = none

/-- The invariant of BUF, LEN, LOADED and CUR. -/
structure BufInv (s : State) : Prop where
  /-- BUF is in canonical form. -/
  canonical : Memory.wf s.buf = true
  /-- Once loaded, BUF holds exactly the bytes at offsets 0 .. LEN-1 (R22). -/
  bytes : s.loaded = true → ∀ off, (readByte s.buf off).isSome = true ↔ off < s.len
  /-- Once loaded, `CUR <= LEN` (R26). -/
  curLe : s.loaded = true → s.cur ≤ s.len
  /-- `LEN <= 2^ADDR_W - 1` (R7, R23). -/
  lenFits : s.len ≤ 2 ^ s.cfg.addrW - 1
  /-- Before the first LOAD the cursor is where reset put it (R25, R38). -/
  idle : s.loaded = false → s.cur = 0

/-- Where a history leaves the scanner. -/
structure ScanPos where
  loaded : Bool
  len : Nat
  cur : Nat
  deriving DecidableEq, Repr

/-- One event read back: an Emit, Skip or End must stand at the cursor of its time, an Emit or Skip only where 16 bytes
remain, an End only where fewer do, and an emitted frame begins with the marker (R25, R29, R102, R106). -/
def replayEvent (p : ScanPos) : Event → Option ScanPos
  | .load n => some ⟨true, n, 0⟩
  | .restart => if p.loaded then some { p with cur := 0 } else none
  | .emit off f =>
    if p.loaded ∧ off = p.cur ∧ off + 16 ≤ p.len ∧ frameW0 f = marker then some { p with cur := off + 16 } else none
  | .skip off => if p.loaded ∧ off = p.cur ∧ off + 16 ≤ p.len then some { p with cur := off + 1 } else none
  | .ended off => if p.loaded ∧ off = p.cur ∧ p.len < off + 16 then some p else none

/-- A history read back from a position. -/
def replayFrom (p : ScanPos) : List Event → Option ScanPos
  | [] => some p
  | e :: es =>
    match replayEvent p e with
    | some q => replayFrom q es
    | none => none

/-- HIST, read back from reset, explains LOADED, LEN and CUR. -/
def HistExplains (s : State) : Prop := replayFrom ⟨false, 0, 0⟩ s.hist = some ⟨s.loaded, s.len, s.cur⟩

/-- An event that starts a scan anew: LOAD or RESTART (R107). -/
def startsScan : Event → Bool
  | .load _ => true
  | .restart => true
  | .emit _ _ => false
  | .skip _ => false
  | .ended _ => false

/-- `scanFrom(B, c)` of 40_scanner.md R109, by fuel: `|B| + 1` reaches the end, since each call moves `c` on. -/
def scanFrom (B : List Byte) : Nat → Nat → List (Nat × RawFrame)
  | 0, _ => []
  | fuel + 1, c =>
    if B.length < c + 16 then []
    else if (B.drop c).take 4 = markerBytes then
      (c, frameOfBytes ((B.drop c).take 16)) :: scanFrom B fuel (c + 16)
    else scanFrom B fuel (c + 1)

/-- `Scan(B) = scanFrom(B, 0)` (R109): the offsets and frames of a byte sequence. -/
def scanBuffer (B : List Byte) : List (Nat × RawFrame) := scanFrom B (B.length + 1) 0

/-- The statuses 60_exceptions.md R181 lets an operation return, and the rows it selects. -/
def statusesOf : Instr → List Status
  | .sync => [.emitted, .ended]
  | .nosync _ => [.skipped, .ended]
  | .hkFrame _ => [.ok]
  | .nonHkFrame _ => [.noSample]
  | .sciAnyW1 _ => [.ok]
  | .calId0 _ _ _ => [.ok]
  | .calId1 _ _ _ => [.ok]
  | .calId2 _ _ _ => [.ok]
  | .calId3 _ _ _ => [.ok]
  | .calId4U1 _ _ => [.ok]
  | .calId4U2 _ _ => [.ok]
  | .calId5 _ _ _ => [.ok]
  | .calId6U1 _ _ => [.ok]
  | .calId6U2 _ _ => [.ok]
  | .calId7 _ _ _ => [.ok]
  | .calId8U1 _ _ => [.ok]
  | .calId8U2 _ _ => [.ok]
  | .calId9 _ _ _ => [.ok]
  | .calId10 _ _ _ => [.ok]
  | .calId11 _ _ _ => [.ok]
  | .calId12 _ _ _ => [.ok]
  | .calId13 _ _ _ => [.ok]
  | .calId14 _ _ _ => [.ok]
  | .calId15 _ _ _ => [.ok]
  | .calUnknownA _ _ _ _ => [.unknownChannel]
  | .calUnknownB _ _ _ _ => [.unknownChannel]
  | .calUnknownC _ _ _ _ => [.unknownChannel]
  | .calUnknownD _ _ _ _ => [.unknownChannel]
  | .load _ => [.ok]
  | .restart => [.ok]
  | .step => [.emitted, .skipped, .ended]
  | .next => [.emitted, .ended]
  | .decodeSci _ => [.ok]
  | .decodeHk _ => [.ok, .noSample]
  | .calibrate _ _ _ _ => [.ok, .unknownChannel]

/-- What an operation's result may depend on besides its operands (41_parsers.md R122, 42_calibration.md R163). -/
inductive Reads where
  /-- The scanner's state: LOAD, RESTART, STEP, NEXT and the window rows. -/
  | scanner
  /-- Nothing: DECODE_HK, the passthrough and the unknown rows (R122, R154, R159). -/
  | nothing
  /-- `VPC_SCI`: DECODE_SCI (R122). -/
  | vpcSci
  /-- `KCAL`: CALIBRATE (R163). -/
  | kcal
  deriving DecidableEq, Repr

/-- What an instruction reads; all but the scanner's are operations of a stateless lane (R6, R191). -/
def readsOf : Instr → Reads
  | .sync => .scanner
  | .nosync _ => .scanner
  | .hkFrame _ => .nothing
  | .nonHkFrame _ => .nothing
  | .sciAnyW1 _ => .vpcSci
  | .calId0 _ _ _ => .kcal
  | .calId1 _ _ _ => .kcal
  | .calId2 _ _ _ => .kcal
  | .calId3 _ _ _ => .kcal
  | .calId4U1 _ _ => .kcal
  | .calId4U2 _ _ => .kcal
  | .calId5 _ _ _ => .kcal
  | .calId6U1 _ _ => .kcal
  | .calId6U2 _ _ => .kcal
  | .calId7 _ _ _ => .kcal
  | .calId8U1 _ _ => .kcal
  | .calId8U2 _ _ => .kcal
  | .calId9 _ _ _ => .kcal
  | .calId10 _ _ _ => .kcal
  | .calId11 _ _ _ => .nothing
  | .calId12 _ _ _ => .nothing
  | .calId13 _ _ _ => .nothing
  | .calId14 _ _ _ => .kcal
  | .calId15 _ _ _ => .kcal
  | .calUnknownA _ _ _ _ => .nothing
  | .calUnknownB _ _ _ _ => .nothing
  | .calUnknownC _ _ _ _ => .nothing
  | .calUnknownD _ _ _ _ => .nothing
  | .load _ => .scanner
  | .restart => .scanner
  | .step => .scanner
  | .next => .scanner
  | .decodeSci _ => .vpcSci
  | .decodeHk _ => .nothing
  | .calibrate _ _ _ _ => .kcal

/-- `r` is finite and a binary64 nearest the exact value `n / d` in units of `2^-1074`, the even one of two equally near
(00_scope.md R11). -/
def IsNearestEven (r : F64) (n : Int) (d : Nat) : Prop :=
  f64IsFinite r = true ∧
  ∀ y : F64, f64IsFinite y = true →
    (f64Int r * d - n).natAbs ≤ (f64Int y * d - n).natAbs ∧
    (f64Int y ≠ f64Int r → (f64Int r * d - n).natAbs = (f64Int y * d - n).natAbs → f64Frac r % 2 = 0)

/-- The exact value `n / d` is so large that rounding to nearest gives the infinity of its sign: at or beyond the midpoint
between the largest finite value and the next power of two. -/
def IsOverflow (r : F64) (n : Int) (d : Nat) : Prop :=
  f64IsInf r = true ∧ d * (2 ^ 2098 - 2 ^ 2044) ≤ n.natAbs ∧ (f64Sign r = true ↔ n < 0)

/-- Correct rounding to nearest, ties to even (R11, decision D7): below that midpoint the nearest finite value, from it on
the infinity, never the other. -/
def IsRounded (r : F64) (n : Int) (d : Nat) : Prop :=
  (n.natAbs < d * (2 ^ 2098 - 2 ^ 2044) ∧ IsNearestEven r n d) ∨ IsOverflow r n d

end Sys2Proof.Machine
end

