-- ==== Sys2Proof/Certificates/Slice0/Obligations.lean ====
section
/-! DEFINITION. Obligations: the statements for the provers. Rule numbers are those of spec/. -/

open Sys2Proof Sys2Proof.Machine

-- Reset

/-- 10_state.md R38, 70_reset_and_hazards.md R200: CUR = 0, LOADED = 0, BUF holds no byte, HIST is empty, no fault is
recorded. (LEN's reset value is the model's choice, log 5, and is not stated.) -/
def Obligations.ResetLeavesTheScannerIdle : Prop :=
  State.reset.cur = 0 ∧ State.reset.loaded = false ∧ State.reset.hist = [] ∧ good State.reset ∧
  ∀ off, readByte State.reset.buf off = none

/-- The invariant of BUF, LEN, LOADED and CUR holds at reset, and the history of reset explains its cursor
(R26, R29, R38). `HistExplains` starts its replay from length 0, so this asserts LEN = 0 at reset, which is the model's
choice (log 5); R38 gives LEN no value there. -/
def Obligations.ResetMeetsTheInvariants : Prop := BufInv State.reset ∧ HistExplains State.reset

-- Encoding

/-- Decoding the words of a well-formed instruction gives it back, every operand at every value (R81, R82, R92). -/
def Obligations.DecodeOfEncodeIsTheInstruction : Prop :=
  ∀ i : Instr, i.wf = true → decode (encode i) = .ok i

/-- What the decoders give is well formed, and its words are the words decoded (R92); a host command's re-encoding keeps the
code and every operand the command reads (R82), its other operand ports being zero (log 24). -/
def Obligations.EncodeOfDecodeIsTheWord : Prop :=
  ∀ (e : Encoded) (i : Instr), decode e = .ok i →
    i.wf = true ∧
    ((∀ w, e ≠ .hostCmd w) → encode i = e) ∧
    ∀ w, e = .hostCmd w →
      ∃ v, encode i = .hostCmd v ∧ v.op = w.op ∧
        (w.op = 0x01 → v.bytes = w.bytes) ∧
        (w.op = 0x10 ∨ w.op = 0x11 → v.frame = w.frame) ∧
        (w.op = 0x20 → v.id = w.id ∧ v.raw = w.raw ∧ v.vpc = w.vpc ∧ v.unit = w.unit)

/-- R83: a code other than the seven of R82 is reserved; the operation records RESERVED_COMMAND and changes nothing else of
the block, and each of the seven codes names a command. -/
def Obligations.ReservedCodesRecordAFaultOnly : Prop :=
  (∀ w : HostWord, w.op ∈ ([0x01, 0x02, 0x03, 0x04, 0x10, 0x11, 0x20] : List Byte) →
    ∃ i, decodeHostWord w = .ok i) ∧
  ∀ (s t : State) (r : HostRequest), fetch s = some (r, t) →
    r.word.op ∉ ([0x01, 0x02, 0x03, 0x04, 0x10, 0x11, 0x20] : List Byte) →
    ∃ why, step s = .next { t with faultMark := some why } ∧ (t.faultMark = none → why = .reservedCommand)

/-- Words written out from R73, R80, R81 and R82 decode to the rows they stand for. -/
def Obligations.WordsOfTheSpecDecode : Prop :=
  decode (.window 0xFE6B2840) = .ok .sync ∧
  decode (.window 0xFE6B2841) = .ok (.nosync 0xFE6B2841) ∧
  decode (.frameHk 0xFE6B2840800000640ABC000100020003) = .ok (.hkFrame 0xFE6B2840800000640ABC000100020003) ∧
  decode (.frameHk 0xFE6B28407FFFFFFF0ABC000100020003) = .ok (.nonHkFrame 0xFE6B28407FFFFFFF0ABC000100020003) ∧
  decode (.calSel 0x104 0xABC0 0x3F10000000000000) = .ok (.calId4U2 0xABC0 0x3F10000000000000) ∧
  decode (.calSel 0x10F 0xFFF0 0x3F10000000000000) = .ok (.calId15 .unit2 0xFFF0 0x3F10000000000000) ∧
  decode (.calSel 0x014 0xABC0 0x3F10000000000000) = .ok (.calUnknownD .unit1 4 0xABC0 0x3F10000000000000) ∧
  decode (.hostCmd (hostWordOf 0x04)) = .ok .next

/-- The `cal_sel` rows, and the DECODE_HK rows of `frame_w1`, are disjoint, cover every word, and name the instruction the
decoder gives (R80, R81, R92). -/
def Obligations.EverySelectorAndKindWordHasOneRow : Prop :=
  (∀ (sel : Sel) (raw : U16) (vpc : F64),
    ∃ r ∈ calRows, r.covers sel.toNat = true ∧ r.mnemonic = mnemonicOf (decodeCalSel sel raw vpc) ∧
      ∀ q ∈ calRows, q.covers sel.toNat = true → q = r) ∧
  ∀ f : RawFrame,
    ∃ r ∈ w1Rows, r.covers (frameW1 f).toNat = true ∧ r.mnemonic = mnemonicOf (decodeFrameHk f) ∧
      ∀ q ∈ w1Rows, q.covers (frameW1 f).toNat = true → q = r

/-- R50: each of the six field words of a 16-byte frame is the big-endian value of its bytes, and each byte of the frame
value stands at its offset. -/
def Obligations.FrameFieldsAreBigEndian : Prop :=
  ∀ bs : List Byte, bs.length = 16 →
    (frameW0 (frameOfBytes bs)).toNat = beValue (bs.take 4) ∧
    (frameW1 (frameOfBytes bs)).toNat = beValue ((bs.drop 4).take 4) ∧
    (frameH0 (frameOfBytes bs)).toNat = beValue ((bs.drop 8).take 2) ∧
    (frameH1 (frameOfBytes bs)).toNat = beValue ((bs.drop 10).take 2) ∧
    (frameH2 (frameOfBytes bs)).toNat = beValue ((bs.drop 12).take 2) ∧
    (frameH3 (frameOfBytes bs)).toNat = beValue ((bs.drop 14).take 2) ∧
    frameBytes (frameOfBytes bs) = bs

-- The step

/-- A step takes the oldest host operation, when no lane choice says otherwise, and runs the instruction it decodes to
(R61, R82). -/
def Obligations.StepRunsTheDecodedOperation : Prop :=
  ∀ (s : State) (r : HostRequest) (rest : List HostRequest) (i : Instr),
    s.inbox = r :: rest → s.laneOrder = [] → decodeHostWord r.word = .ok i →
    step s = exec i { s with inbox := rest, active := r.tag }

/-- With nothing issued the block is idle (70_reset_and_hazards.md R201). -/
def Obligations.StepIdlesWithoutOperations : Prop := ∀ s : State, s.inbox = [] → step s = .next s

/-- Whatever `laneOrder` holds, a step takes an operation when there is one, removes just that one, changes nothing of the
block by taking it, and lets it pass only lane operations, being one itself (R61, R62; the model's reading, log 2). -/
def Obligations.OnlyLaneOperationsPassLaneOperations : Prop :=
  ∀ s : State, s.inbox ≠ [] →
    ∃ (p : Nat) (r : HostRequest),
      s.inbox[p]? = some r ∧
      fetch s = some (r, { s with inbox := s.inbox.eraseIdx p, laneOrder := s.laneOrder.tail, active := r.tag }) ∧
      (0 < p → ∀ q x, q ≤ p → s.inbox[q]? = some x → isLaneOp x = true)

/-- R62: lane operations "may run in parallel lanes and complete in any order": every order leaves the block as every other
order does and returns the same results with the same tags, up to their order. -/
def Obligations.LaneCompletionOrderChangesNoResult : Prop :=
  ∀ (s : State) (o1 o2 : List Nat), (∀ r ∈ s.inbox, isLaneOp r = true) →
    ∃ t1 t2 : State,
      Host.Core.run Sys2Proof.core s.inbox.length { s with laneOrder := o1 } = .next t1 ∧
      Host.Core.run Sys2Proof.core s.inbox.length { s with laneOrder := o2 } = .next t2 ∧
      t1.results.Perm t2.results ∧ t1.results.length = s.results.length + s.inbox.length ∧
      t1.inbox = [] ∧ t2.inbox = [] ∧
      t1 = { s with inbox := [], laneOrder := t1.laneOrder, active := t1.active, results := t1.results } ∧
      t2 = { s with inbox := [], laneOrder := t2.laneOrder, active := t2.active, results := t2.results }

/-- A table word presented to the block makes the next step run its instruction (log 14). -/
def Obligations.PresentedTableWordRunsFirst : Prop :=
  ∀ (s : State) (nbits w : Nat) (i : Instr), decodeTableWord nbits w = some i →
    step (s.withFetchWord nbits w) = exec i (stageBuffer (encode i) s)

/-- Where 16 bytes remain, STEP runs the row its window decodes to (R92, R102). -/
def Obligations.StepRunsTheWindowRow : Prop :=
  ∀ (s : State) (bs : List Byte), s.loaded = true → s.cur + 16 ≤ s.len →
    readBytes s.buf s.cur 4 = some bs →
    exec .step s = exec (decodeWindow (windowOfBytes bs)) s

/-- DECODE_HK runs the row `W1` decodes to, DECODE_SCI its one row (R80, R92, R125). -/
def Obligations.DecodersRunTheKindRow : Prop :=
  ∀ (s : State) (f : RawFrame),
    exec (.decodeHk f) s = exec (decodeFrameHk f) s ∧ exec (.decodeSci f) s = exec (decodeFrameSci f) s

/-- CALIBRATE runs the row that `SEL = (UNIT, ID)` selects (R81, R140). -/
def Obligations.CalibrateRunsTheSelectedRow : Prop :=
  ∀ (s : State) (id : Byte) (raw : U16) (vpc : F64) (unit : HardwareUnit),
    exec (.calibrate id raw vpc unit) s = exec (decodeCalSel (selOf unit.bit id) raw vpc) s

-- The scanner

/-- R100: LOAD of at most `2^ADDR_W - 1` bytes takes the buffer, sets LEN, LOADED and CUR, records Load and returns
OK(cur = 0); a longer one records OPERAND_RANGE and changes nothing else. Its code is 0x01. -/
def Obligations.LoadTakesTheBuffer : Prop :=
  ∀ (s : State) (b : List Byte),
    encode (.load b) = .hostCmd { hostWordOf 0x01 with bytes := b } ∧
    (b.length ≤ 2 ^ s.cfg.addrW - 1 →
      ∃ m : Memory, (∀ off, readByte m off = b[off]?) ∧
        exec (.load b) s = .next
          { s with
            buf := m, len := b.length, loaded := true, cur := 0,
            hist := s.hist ++ [.load b.length], results := s.results ++ [⟨s.active, .okCur 0⟩] }) ∧
    (2 ^ s.cfg.addrW - 1 < b.length →
      ∃ why, exec (.load b) s = .next { s with faultMark := some why } ∧
        (s.faultMark = none → why = .operandRange))

/-- R101: RESTART of a loaded buffer sets CUR to 0, records Restart and returns OK(cur = 0), changing nothing else; before
the first LOAD it records NO_BUFFER. Its code is 0x02. -/
def Obligations.RestartRewindsTheCursor : Prop :=
  encode .restart = .hostCmd (hostWordOf 0x02) ∧
  ∀ s : State,
    (s.loaded = true →
      exec .restart s = .next
        { s with
          cur := 0, hist := s.hist ++ [.restart], results := s.results ++ [⟨s.active, .okCur 0⟩] }) ∧
    (s.loaded = false →
      ∃ why, exec .restart s = .next { s with faultMark := some why } ∧ (s.faultMark = none → why = .noBuffer))

/-- R102: STEP. NO_BUFFER before the first LOAD; at the end END with CUR unchanged; at the marker the 16 bytes from CUR are
emitted and CUR moves by 16; at any other window CUR moves by 1. Its code is 0x03. -/
def Obligations.StepExaminesOnePosition : Prop :=
  encode .step = .hostCmd (hostWordOf 0x03) ∧
  ∀ s : State,
    (s.loaded = false →
      ∃ why, exec .step s = .next { s with faultMark := some why } ∧ (s.faultMark = none → why = .noBuffer)) ∧
    (s.loaded = true → s.len < s.cur + 16 →
      exec .step s = .next
        { s with
          hist := s.hist ++ [.ended s.cur], results := s.results ++ [⟨s.active, .ended s.cur⟩] }) ∧
    (s.loaded = true → s.cur + 16 ≤ s.len → ∀ bs, readBytes s.buf s.cur 16 = some bs → bs.take 4 = markerBytes →
      exec .step s = .next
        { s with
          cur := s.cur + 16, hist := s.hist ++ [.emit s.cur (frameOfBytes bs)],
          results := s.results ++ [⟨s.active, .emitted (frameOfBytes bs) (s.cur + 16)⟩] }) ∧
    (s.loaded = true → s.cur + 16 ≤ s.len → ∀ bs, readBytes s.buf s.cur 4 = some bs → bs ≠ markerBytes →
      exec .step s = .next
        { s with
          cur := s.cur + 1, hist := s.hist ++ [.skip s.cur],
          results := s.results ++ [⟨s.active, .skipped (s.cur + 1)⟩] })

/-- The window rows as instructions: SYNC emits the frame at CUR, NOSYNC skips one byte; both keep STEP's two earlier tests.
Where the window at CUR is the row's own (the marker for SYNC, `win`, not the marker, for NOSYNC) this is R102. That the rows
do not look at the window again, so that they do the same at any other window, and what they do without a buffer or at the
end, are the model's choices (log 12). -/
def Obligations.WindowRowsEmitOrSkip : Prop :=
  ∀ (s : State) (win : U32),
    (s.loaded = true → s.cur + 16 ≤ s.len → ∀ bs, readBytes s.buf s.cur 16 = some bs →
      exec .sync s = .next
        { s with
          cur := s.cur + 16, hist := s.hist ++ [.emit s.cur (frameOfBytes bs)],
          results := s.results ++ [⟨s.active, .emitted (frameOfBytes bs) (s.cur + 16)⟩] }) ∧
    (s.loaded = true → s.cur + 16 ≤ s.len →
      exec (.nosync win) s = .next
        { s with
          cur := s.cur + 1, hist := s.hist ++ [.skip s.cur],
          results := s.results ++ [⟨s.active, .skipped (s.cur + 1)⟩] }) ∧
    ((s.loaded = false ∨ s.len < s.cur + 16) →
      exec .sync s = exec .step s ∧ exec (.nosync win) s = exec .step s)

/-- R103: NEXT. NO_BUFFER before the first LOAD; otherwise it skips to the first position whose window is the marker and
emits the frame there, or, where no position is left that has one, skips to the end and answers END. Every STEP inside
leaves its event in HIST, and SKIPPED is never returned. Its code is 0x04. -/
def Obligations.NextReturnsTheNextFrameOrEnd : Prop :=
  encode .next = .hostCmd (hostWordOf 0x04) ∧
  ∀ s : State,
    (s.loaded = false →
      ∃ why, exec .next s = .next { s with faultMark := some why } ∧ (s.faultMark = none → why = .noBuffer)) ∧
    (∀ off bs, s.loaded = true → s.cur ≤ off → off + 16 ≤ s.len →
      (∀ p, s.cur ≤ p → p < off → ∃ w, readBytes s.buf p 4 = some w ∧ w ≠ markerBytes) →
      readBytes s.buf off 16 = some bs → bs.take 4 = markerBytes →
      exec .next s = .next
        { s with
          cur := off + 16,
          hist := s.hist ++ (List.range' s.cur (off - s.cur)).map Event.skip ++ [.emit off (frameOfBytes bs)],
          results := s.results ++ [⟨s.active, .emitted (frameOfBytes bs) (off + 16)⟩] }) ∧
    (s.loaded = true →
      (∀ p, s.cur ≤ p → p + 16 ≤ s.len → ∃ w, readBytes s.buf p 4 = some w ∧ w ≠ markerBytes) →
      exec .next s = .next
        { s with
          cur := max s.cur (s.len - 15),
          hist := s.hist ++ (List.range' s.cur (s.len - 15 - s.cur)).map Event.skip ++
            [.ended (max s.cur (s.len - 15))],
          results := s.results ++ [⟨s.active, .ended (max s.cur (s.len - 15))⟩] })

/-- 40_scanner.md R105: a NEXT makes one STEP when fewer than 16 bytes remain, else at most `LEN - c0 - 14`. -/
def Obligations.NextMakesBoundedlyManySteps : Prop :=
  ∀ s t : State, s.loaded = true → exec .next s = .next t →
    (s.len < s.cur + 16 → t.hist.length = s.hist.length + 1) ∧
    (s.cur + 16 ≤ s.len →
      s.hist.length < t.hist.length ∧ t.hist.length ≤ s.hist.length + (s.len - s.cur - 14))

/-- 10_state.md R28: DONE is true exactly when STEP returns END; before the first LOAD neither is so. -/
def Obligations.DoneMeansStepReturnsEnd : Prop :=
  ∀ s : State,
    doneFlag s = true ↔ ∃ t c, exec .step s = .next t ∧ t.results = s.results ++ [⟨s.active, .ended c⟩]

/-- R113: CUR moves backwards only through LOAD or RESTART. -/
def Obligations.CursorNeverMovesBack : Prop :=
  ∀ (i : Instr) (s t : State), exec i s = .next t → (∀ b, i ≠ .load b) → i ≠ .restart → s.cur ≤ t.cur

/-- 20_memory.md R57, R63: no operation but LOAD changes a byte of BUF, LEN or LOADED. -/
def Obligations.OnlyLoadChangesTheBuffer : Prop :=
  ∀ (i : Instr) (s t : State), exec i s = .next t → (∀ b, i ≠ .load b) →
    t.buf = s.buf ∧ t.len = s.len ∧ t.loaded = s.loaded ∧ ∀ off, readByte t.buf off = readByte s.buf off

/-- No operation changes the configuration or what the host has still issued, and HIST and the results only grow at their
ends (R29, R61; 60_exceptions.md R192). -/
def Obligations.ConfigurationAndInboxStay : Prop :=
  ∀ (i : Instr) (s t : State), exec i s = .next t →
    t.cfg = s.cfg ∧ t.inbox = s.inbox ∧ t.laneOrder = s.laneOrder ∧ t.active = s.active ∧
    (∃ es, t.hist = s.hist ++ es) ∧ ∃ rs, t.results = s.results ++ rs ∧ rs.length ≤ 1

/-- Every step keeps the invariant of BUF, LEN, LOADED and CUR (R22, R23, R26). -/
def Obligations.StepKeepsTheBufferInvariant : Prop :=
  ∀ s t : State, BufInv s → step s = .next t → BufInv t

/-- Every step keeps the history a true account of LOADED, LEN and CUR, emitted frames beginning with the marker
(R25, R29, R106). -/
def Obligations.StepKeepsTheHistoryTrue : Prop :=
  ∀ s t : State, HistExplains s → step s = .next t → HistExplains t

/-- 40_scanner.md R107: within one scan emitted frames are 16 bytes apart or more, and within the buffer. -/
def Obligations.EmittedFramesNeverOverlap : Prop :=
  ∀ (s : State) (pre mid post : List Event) (o1 o2 : Nat) (f1 f2 : RawFrame), HistExplains s →
    s.hist = pre ++ [.emit o1 f1] ++ mid ++ [.emit o2 f2] ++ post →
    (∀ e ∈ mid, startsScan e = false) →
    o1 + 16 ≤ o2 ∧ ((∀ e ∈ post, ∀ n, e ≠ .load n) → o2 + 16 ≤ s.len)

/-- 40_scanner.md R106: a frame a step emits begins with the marker and is the 16 bytes of BUF at its offset. -/
def Obligations.EmittedFramesBeginWithTheMarker : Prop :=
  ∀ (s t : State) (tag c : Nat) (f : RawFrame), step s = .next t →
    t.results = s.results ++ [⟨tag, .emitted f c⟩] →
    frameW0 f = marker ∧ c = t.cur ∧ 16 ≤ c ∧ c ≤ s.len ∧
    ∃ bs, readBytes s.buf (c - 16) 16 = some bs ∧ f = frameOfBytes bs

/-- 40_scanner.md R109: RESTART, then SCANALL, returns the frames of `Scan(BUF)`, whatever was scanned before, and leaves the
cursor where fewer than 16 bytes remain, having changed nothing but CUR, HIST and the results (R102, R103). SCANALL's bound on
its NEXTs, its stop, and that it passes operations already waiting in the inbox are the model's (log 19). -/
def Obligations.RestartScanallReturnsTheScanOfTheBuffer : Prop :=
  ∀ (s : State) (B : List Byte), BufInv s → s.loaded = true → readBytes s.buf 0 s.len = some B →
    ∃ t u, exec .restart s = .next t ∧ scanAll t = .next ((scanBuffer B).map Prod.snd, u) ∧
      u = { s with cur := u.cur, hist := u.hist, results := u.results } ∧
      u.cur ≤ s.len ∧ s.len < u.cur + 16

/-- 40_scanner.md R110: changing payload bytes of emitted frames leaves the emitted offsets, and each frame is the changed
buffer's bytes there. -/
def Obligations.PayloadBytesDoNotMoveFrames : Prop :=
  ∀ B C : List Byte, C.length = B.length →
    (∀ k, (∀ p f, (p, f) ∈ scanBuffer B → ¬(p + 4 ≤ k ∧ k < p + 16)) → C[k]? = B[k]?) →
    scanBuffer C = (scanBuffer B).map fun pf => (pf.1, frameOfBytes ((C.drop pf.1).take 16))

-- Faults and results

/-- R185: before a LOAD, RESTART, STEP and NEXT set the mark FAULT and change nothing else, and a LOAD that is too long does
the same; a mark that was clear takes the reason of the table. -/
def Obligations.FaultsSetTheMarkOnly : Prop :=
  ∀ (s : State),
    (s.loaded = false → ∀ i ∈ [Instr.restart, .step, .next],
      ∃ why, exec i s = .next { s with faultMark := some why } ∧ (s.faultMark = none → why = .noBuffer)) ∧
    (∀ b : List Byte, 2 ^ s.cfg.addrW - 1 < b.length →
      ∃ why, exec (.load b) s = .next { s with faultMark := some why } ∧ (s.faultMark = none → why = .operandRange))

/-- FAULT is never cleared (R185); that the first reason stays is the model's reading (log 3). -/
def Obligations.FaultMarkStays : Prop :=
  ∀ (s t : State) (why : FaultReason), s.faultMark = some why → step s = .next t → t.faultMark = some why

/-- A result is returned or a fault is recorded, never both: an operation that returns a result leaves FAULT as it is
(R180, R189). -/
def Obligations.ResultsLeaveTheFaultMark : Prop :=
  ∀ (i : Instr) (s t : State), exec i s = .next t →
    (∃ r, t.results = s.results ++ [⟨s.active, r⟩] ∧ t.faultMark = s.faultMark) ∨
    (∃ why, t = { s with faultMark := some why })

/-- No instruction is refused, and the machine stops only where BUF holds no byte at an offset below LEN (R59; the stop is
the model's, log 6). -/
def Obligations.TheOnlyStopIsAHoleInTheBuffer : Prop :=
  ∀ (i : Instr) (s : State),
    (∀ r, exec i s ≠ .refused r) ∧
    ∀ r, exec i s = .fault r →
      ∃ off k, r = .bufferHole off ∧ off + 16 ≤ s.len ∧ k < 16 ∧ readByte s.buf (off + k) = none

/-- In every state that keeps the invariant, every instruction answers a next state (R59, R189). -/
def Obligations.EveryInstructionAnswers : Prop :=
  ∀ (i : Instr) (s : State), BufInv s → ∃ t, exec i s = .next t

/-- 60_exceptions.md R181: an operation returns only the statuses its table row gives it. -/
def Obligations.OperationsReturnTheirStatuses : Prop :=
  ∀ (i : Instr) (s t : State) (r : Result), exec i s = .next t →
    t.results = s.results ++ [⟨s.active, r⟩] → statusOf r ∈ statusesOf i

-- The lanes

/-- R163 and 41_parsers.md R122: an operation of a lane returns a result and does nothing else. DECODE_HK's result, and that
of a row that computes nothing in floating point, is fixed by its operands; DECODE_SCI's depends besides on `VPC_SCI` alone,
CALIBRATE's on `KCAL` alone. (How floating point is evaluated is a configuration of the model, log 8.) -/
def Obligations.LaneOperationsOnlyReturn : Prop :=
  ∀ i : Instr,
    (readsOf i = .nothing →
      ∃ r : Result, ∀ s : State, exec i s = .next { s with results := s.results ++ [⟨s.active, r⟩] }) ∧
    (readsOf i = .vpcSci →
      ∃ r : FpEval → F64 → Result, ∀ s : State,
        exec i s = .next { s with results := s.results ++ [⟨s.active, r s.cfg.fpEval (vpcSci s.cfg)⟩] }) ∧
    (readsOf i = .kcal →
      ∃ r : FpEval → KCal → Result, ∀ s : State,
        exec i s = .next { s with results := s.results ++ [⟨s.active, r s.cfg.fpEval s.cfg.kcal⟩] })

/-- R120: the science sample of a frame, under the evaluation D7 (log 8). DECODE_SCI's code is 0x10; the row SCI_ANY_W1 is
its `frame_w1` row. -/
def Obligations.DecodeSciReturnsTheSample : Prop :=
  ∀ (s : State) (f : RawFrame), s.cfg.fpEval = .d7 →
    encode (.decodeSci f) = .hostCmd { hostWordOf 0x10 with frame := f } ∧
    ∀ i ∈ [Instr.decodeSci f, .sciAnyW1 f],
      exec i s = .next
        { s with
          results := s.results ++ [⟨s.active, .okSci
            { isCommanded := (frameW1 f).getLsbD 30
              timestamp := ((frameW1 f).extractLsb' 0 30).setWidth 32
              channel1 := fmul (toF64 (frameH0 f).toNat) (fdiv s.cfg.fullScaleSci 0x40F0000000000000)
              channel2 := fmul (toF64 (frameH1 f).toNat) (fdiv s.cfg.fullScaleSci 0x40F0000000000000)
              channel3 := fmul (toF64 (frameH2 f).toNat) (fdiv s.cfg.fullScaleSci 0x40F0000000000000)
              channel4 := fmul (toF64 (frameH3 f).toNat) (fdiv s.cfg.fullScaleSci 0x40F0000000000000) }⟩] }

/-- R121: DECODE_HK of a frame with `W1[31] = 1` returns its sample, of any other frame NO_SAMPLE; the rows HK_FRAME and
NON_HK_FRAME do so of the frames they match. DECODE_HK's code is 0x11. -/
def Obligations.DecodeHkReturnsTheSampleOrNone : Prop :=
  ∀ (s : State) (f : RawFrame),
    encode (.decodeHk f) = .hostCmd { hostWordOf 0x11 with frame := f } ∧
    ((frameW1 f).getLsbD 31 = true →
      ∀ i ∈ [Instr.decodeHk f, .hkFrame f],
        exec i s = .next
          { s with
            results := s.results ++ [⟨s.active, .okHk
              { timestamp := ((frameW1 f).extractLsb' 0 30).setWidth 32
                hkId := ((frameH0 f).extractLsb' 12 4).setWidth 8
                hkValueRaw :=
                  if (frameH0 f).extractLsb' 12 4 = 10 ∨ (frameH0 f).extractLsb' 12 4 = 11 then
                    ((frameH0 f).extractLsb' 0 12).setWidth 16
                  else (frameH0 f).extractLsb' 0 12 ++ (0 : BitVec 4)
                deltaEventCount := frameH1 f
                deltaDropEventCount := frameH2 f
                deltaLostEventCount := frameH3 f }⟩] }) ∧
    ((frameW1 f).getLsbD 31 = false →
      ∀ i ∈ [Instr.decodeHk f, .nonHkFrame f],
        exec i s = .next { s with results := s.results ++ [⟨s.active, .noSample⟩] })

/-- R84: an ignored field changes no output: DECODE_SCI ignores `W0` and `W1[31]`, DECODE_HK ignores `W0` and `W1[30]`. -/
def Obligations.IgnoredFieldsChangeNothing : Prop :=
  ∀ (s : State) (f g : RawFrame),
    frameH0 f = frameH0 g → frameH1 f = frameH1 g → frameH2 f = frameH2 g → frameH3 f = frameH3 g →
    ((frameW1 f).extractLsb' 0 31 = (frameW1 g).extractLsb' 0 31 → exec (.decodeSci f) s = exec (.decodeSci g) s) ∧
    ((frameW1 f).getLsbD 31 = (frameW1 g).getLsbD 31 →
      (frameW1 f).extractLsb' 0 30 = (frameW1 g).extractLsb' 0 30 → exec (.decodeHk f) s = exec (.decodeHk g) s)

/-- 41_parsers.md R123: an id DECODE_HK returns is below 16, and CALIBRATE of it never returns UNKNOWN_CHANNEL. -/
def Obligations.DecodedIdsAreKnownChannels : Prop :=
  ∀ (s t : State) (f : RawFrame) (smp : HousekeepingSample), exec (.decodeHk f) s = .next t →
    t.results = s.results ++ [⟨s.active, .okHk smp⟩] →
    smp.hkId.toNat < 16 ∧
    ∀ vpc unit, ∃ y,
      exec (.calibrate smp.hkId smp.hkValueRaw vpc unit) t =
        .next { t with results := t.results ++ [⟨t.active, .okValue y⟩] }

/-- 41_parsers.md R124: the raw value of ids 10 and 11 is at most 0x0FFF; of every other id it is a multiple of 16 and at
most 0xFFF0. -/
def Obligations.RawValuesFollowTheIdLaw : Prop :=
  ∀ f : RawFrame,
    if (hkSample f).hkId = 10 ∨ (hkSample f).hkId = 11 then (hkSample f).hkValueRaw.toNat ≤ 0x0FFF
    else (hkSample f).hkValueRaw.toNat % 16 = 0 ∧ (hkSample f).hkValueRaw.toNat ≤ 0xFFF0

/-- 95_test_vectors.md L1-1b: the source's worked frame, with the test value `VPC_SCI = 2^-14` (full scale 4.0), decodes to
false, 5 and 0.25, 0.5, 0.75, 1.0. -/
def Obligations.WorkedFrameDecodes : Prop :=
  ∀ s : State, s.cfg.fpEval = .d7 → s.cfg.fullScaleSci = 0x4010000000000000 →
    exec (.decodeSci 0xFE6B2840000000051000200030004000) s = .next
      { s with
        results := s.results ++ [⟨s.active, .okSci
          ⟨false, 5, 0x3FD0000000000000, 0x3FE0000000000000, 0x3FE8000000000000, 0x3FF0000000000000⟩⟩] }

/-- 41_parsers.md R127: with a positive finite `vpc = VPC_SCI` whose largest count is still finite, a sample with a 30-bit
timestamp and channels in `[0, 65535 vpc]` decodes back from ENC_SCI with the same flag and timestamp and each channel within
one LSB. (That `65535 vpc` is finite is not said in R127; without it a channel can round to infinity. That ENC_SCI's quotient
is exact and rounded once is the model's reading, log 23.) -/
def Obligations.EncodedSampleDecodesBack : Prop :=
  ∀ (s : State) (smp : ScienceSample) (vpc : F64), s.cfg.fpEval = .d7 → vpcSci s.cfg = vpc →
    f64IsFinite vpc = true → 0 < f64Int vpc → f64IsFinite (fmul (toF64 65535) vpc) = true →
    smp.timestamp.toNat < 2 ^ 30 →
    (∀ c ∈ [smp.channel1, smp.channel2, smp.channel3, smp.channel4],
      f64IsFinite c = true ∧ 0 ≤ f64Int c ∧ f64Int c ≤ 65535 * f64Int vpc) →
    ∃ q : ScienceSample,
      exec (.decodeSci (encSci smp vpc)) s = .next { s with results := s.results ++ [⟨s.active, .okSci q⟩] } ∧
      q.isCommanded = smp.isCommanded ∧ q.timestamp = smp.timestamp ∧
      (f64Int q.channel1 - f64Int smp.channel1).natAbs ≤ f64Units vpc ∧
      (f64Int q.channel2 - f64Int smp.channel2).natAbs ≤ f64Units vpc ∧
      (f64Int q.channel3 - f64Int smp.channel3).natAbs ≤ f64Units vpc ∧
      (f64Int q.channel4 - f64Int smp.channel4).natAbs ≤ f64Units vpc ∧
      f64IsFinite q.channel1 = true ∧ f64IsFinite q.channel2 = true ∧
      f64IsFinite q.channel3 = true ∧ f64IsFinite q.channel4 = true

-- Calibration

/-- R143, R144, R145, R146: ids 0 to 3 return `fmul(fsub(v, K_TOFF), K_TSCALE)`, UNIT ignored. -/
def Obligations.TemperatureIdsUseTheTemperatureFormula : Prop :=
  ∀ (s : State) (raw : U16) (vpc : F64) (unit : HardwareUnit), s.cfg.fpEval = .d7 →
    ∀ i ∈ [Instr.calId0 unit raw vpc, .calId1 unit raw vpc, .calId2 unit raw vpc, .calId3 unit raw vpc,
        .calibrate 0 raw vpc unit, .calibrate 1 raw vpc unit, .calibrate 2 raw vpc unit, .calibrate 3 raw vpc unit],
      exec i s = .next
        { s with
          results := s.results ++ [⟨s.active, .okValue
            (fmul (fsub (fmul (toF64 raw.toNat) vpc) s.cfg.kcal.tOff) s.cfg.kcal.tScale)⟩] }

/-- R147's formulas: id 4 returns `fdiv(fmul(v, K_MILLI), K_I52_U1_DIV)` for Unit1 and
`fdiv(fmul(fsub(v, K_I52_U2_OFF), K_MILLI), K_I52_U2_DIV)` for Unit2. -/
def Obligations.IdFourUsesTheFormulaOfItsUnit : Prop :=
  ∀ (s : State) (raw : U16) (vpc : F64), s.cfg.fpEval = .d7 →
    (∀ i ∈ [Instr.calId4U1 raw vpc, .calibrate 4 raw vpc .unit1],
      exec i s = .next
        { s with
          results := s.results ++ [⟨s.active, .okValue
            (fdiv (fmul (fmul (toF64 raw.toNat) vpc) s.cfg.kcal.milli) s.cfg.kcal.i52U1Div)⟩] }) ∧
    (∀ i ∈ [Instr.calId4U2 raw vpc, .calibrate 4 raw vpc .unit2],
      exec i s = .next
        { s with
          results := s.results ++ [⟨s.active, .okValue
            (fdiv (fmul (fsub (fmul (toF64 raw.toNat) vpc) s.cfg.kcal.i52U2Off) s.cfg.kcal.milli)
              s.cfg.kcal.i52U2Div)⟩] })

/-- R149's formulas: id 6 returns `fdiv(fmul(fadd(v, K_I33_U1_OFF), K_MILLI), K_I33_U1_DIV)` for Unit1 and
`fdiv(fmul(fsub(v, K_I33_U2_OFF), K_MILLI), K_I33_U2_DIV)` for Unit2. -/
def Obligations.IdSixUsesTheFormulaOfItsUnit : Prop :=
  ∀ (s : State) (raw : U16) (vpc : F64), s.cfg.fpEval = .d7 →
    (∀ i ∈ [Instr.calId6U1 raw vpc, .calibrate 6 raw vpc .unit1],
      exec i s = .next
        { s with
          results := s.results ++ [⟨s.active, .okValue
            (fdiv (fmul (fadd (fmul (toF64 raw.toNat) vpc) s.cfg.kcal.i33U1Off) s.cfg.kcal.milli)
              s.cfg.kcal.i33U1Div)⟩] }) ∧
    (∀ i ∈ [Instr.calId6U2 raw vpc, .calibrate 6 raw vpc .unit2],
      exec i s = .next
        { s with
          results := s.results ++ [⟨s.active, .okValue
            (fdiv (fmul (fsub (fmul (toF64 raw.toNat) vpc) s.cfg.kcal.i33U2Off) s.cfg.kcal.milli)
              s.cfg.kcal.i33U2Div)⟩] })

/-- R151's formula: id 8 returns `fdiv(fmul(fadd(v, K_I28_OFF), K_MILLI), K_I28_DIV)` for both units. -/
def Obligations.IdEightUsesOneFormulaForBothUnits : Prop :=
  ∀ (s : State) (raw : U16) (vpc : F64) (unit : HardwareUnit), s.cfg.fpEval = .d7 →
    ∀ i ∈ [Instr.calId8U1 raw vpc, .calId8U2 raw vpc, .calibrate 8 raw vpc unit],
      exec i s = .next
        { s with
          results := s.results ++ [⟨s.active, .okValue
            (fdiv (fmul (fadd (fmul (toF64 raw.toNat) vpc) s.cfg.kcal.i28Off) s.cfg.kcal.milli)
              s.cfg.kcal.i28Div)⟩] }

/-- R148, R150, R152, R153, R157, R158: ids 5, 7, 9, 10, 14 and 15 return the scaled value `v = fmul(to_f64(raw), vpc)`,
UNIT ignored. -/
def Obligations.ScaledIdsReturnTheScaledValue : Prop :=
  ∀ (s : State) (raw : U16) (vpc : F64) (unit : HardwareUnit), s.cfg.fpEval = .d7 →
    ∀ i ∈ [Instr.calId5 unit raw vpc, .calId7 unit raw vpc, .calId9 unit raw vpc, .calId10 unit raw vpc,
        .calId14 unit raw vpc, .calId15 unit raw vpc, .calibrate 5 raw vpc unit, .calibrate 7 raw vpc unit,
        .calibrate 9 raw vpc unit, .calibrate 10 raw vpc unit, .calibrate 14 raw vpc unit, .calibrate 15 raw vpc unit],
      exec i s = .next
        { s with results := s.results ++ [⟨s.active, .okValue (fmul (toF64 raw.toNat) vpc)⟩] }

/-- R154, R155, R156: ids 11, 12 and 13 return `to_f64(raw)`, which is exact, for every `vpc`, NaN included, every unit and
every evaluation. -/
def Obligations.PassthroughIdsReturnTheRawValue : Prop :=
  ∀ (s : State) (raw : U16) (vpc : F64) (unit : HardwareUnit),
    f64IsFinite (toF64 raw.toNat) = true ∧ f64Int (toF64 raw.toNat) = (raw.toNat : Int) * 2 ^ 1074 ∧
    ∀ i ∈ [Instr.calId11 unit raw vpc, .calId12 unit raw vpc, .calId13 unit raw vpc, .calibrate 11 raw vpc unit,
        .calibrate 12 raw vpc unit, .calibrate 13 raw vpc unit],
      exec i s = .next { s with results := s.results ++ [⟨s.active, .okValue (toF64 raw.toNat)⟩] }

/-- R184: CALIBRATE of an id from 16 to 255, and the four unknown rows, return UNKNOWN_CHANNEL and change nothing else. -/
def Obligations.UnknownIdsReturnUnknownChannel : Prop :=
  ∀ (s : State) (raw : U16) (vpc : F64) (unit : HardwareUnit),
    (∀ id : Byte, 16 ≤ id.toNat →
      exec (.calibrate id raw vpc unit) s =
        .next { s with results := s.results ++ [⟨s.active, .unknownChannel⟩] }) ∧
    ∀ (a : BitVec 7) (b : BitVec 6) (c : BitVec 5) (d : BitVec 4),
      ∀ i ∈ [Instr.calUnknownA unit a raw vpc, .calUnknownB unit b raw vpc, .calUnknownC unit c raw vpc,
          .calUnknownD unit d raw vpc],
        exec i s = .next { s with results := s.results ++ [⟨s.active, .unknownChannel⟩] }

/-- 42_calibration.md R160: but for ids 4 and 6 the units return the same result, bit for bit, under every evaluation. -/
def Obligations.OnlyIdsFourAndSixDependOnTheUnit : Prop :=
  ∀ (s : State) (id : Byte) (raw : U16) (vpc : F64), id ≠ 4 → id ≠ 6 →
    exec (.calibrate id raw vpc .unit1) s = exec (.calibrate id raw vpc .unit2) s

/-- 42_calibration.md R161 where no product overflows: with the source's constants and a `vpc` from 0 to below `2^826`
(`2^1900` units of `2^-1074`) the units of id 4 return different values. -/
def Obligations.IdFourUnitsDifferBelowOverflow : Prop :=
  ∀ (s : State) (raw : U16) (vpc : F64), s.cfg.fpEval = .d7 → s.cfg.kcal = kcalSource →
    f64IsFinite vpc = true → 0 ≤ f64Int vpc → f64Units vpc < 2 ^ 1900 →
    exec (.calibrate 4 raw vpc .unit1) s ≠ exec (.calibrate 4 raw vpc .unit2) s

/-- 42_calibration.md R161 word for word, for every `vpc >= 0`: refuted by `vpc = +infinity`, where both units return
+infinity. -/
def Obligations.IdFourUnitsDifferForEveryVpc : Prop :=
  ∀ (s : State) (raw : U16) (vpc : F64), s.cfg.fpEval = .d7 → s.cfg.kcal = kcalSource →
    f64IsNaN vpc = false → f64Sign vpc = false →
    exec (.calibrate 4 raw vpc .unit1) s ≠ exec (.calibrate 4 raw vpc .unit2) s

/-- 42_calibration.md R142: each default constant is the binary64 nearest the source's decimal literal. -/
def Obligations.ConstantsAreTheNearestToTheLiterals : Prop :=
  kcalSource =
    { tOff := litF64 273 2, tScale := litF64 100 0, milli := litF64 1000 0, i52U1Div := litF64 18 0,
      i52U2Off := litF64 1129 3, i52U2Div := litF64 21456 3, i33U1Off := litF64 178 4, i33U1Div := litF64 9131 3,
      i33U2Off := litF64 29 3, i33U2Div := litF64 18 0, i28Off := litF64 747 5, i28Div := litF64 1794 2 }

/-- 95_test_vectors.md section 2.4: cells of the calibration table, by their bits, with `vpc = 2^-14` and the default
constants: (id, unit, raw, result). -/
def Obligations.CalibrationTableCells : Prop :=
  ∀ c ∈ ([(0, .unit1, 0x0000, 0xC071100000000000), (1, .unit2, 0x0010, 0xC0710E7000000000),
      (3, .unit1, 0xABC0, 0xC0128FFFFFFFFFFE), (2, .unit2, 0xFFF0, 0x405FB9C000000000),
      (4, .unit1, 0x0010, 0x3FABC71C71C71C72), (4, .unit1, 0xABC0, 0x4062A2D555555555),
      (4, .unit2, 0x0000, 0xC04A4F45ADE97939), (4, .unit2, 0xFFF0, 0x4060B86C37BE5461),
      (6, .unit1, 0x0000, 0x3FFF30C156B769F3), (6, .unit1, 0xABC0, 0x40727D93F2A799F2),
      (6, .unit2, 0x0010, 0xBFF8E8E38E38E38E), (6, .unit2, 0xFFF0, 0x406B91D1C71C71C7),
      (8, .unit1, 0xABC0, 0x4062C01D1C4111FB), (8, .unit2, 0xFFF0, 0x406BEA7A01B65E2D),
      (10, .unit1, 0x0005, 0x3F34000000000000), (12, .unit2, 0xABC0, 0x40E5780000000000)] :
      List (Byte × HardwareUnit × U16 × F64)),
    calibrateResult { State.reset.cfg with kcal := kcalSource, fpEval := .d7 } c.1 c.2.2.1 0x3F10000000000000 c.2.1 =
      .okValue c.2.2.2

/-- R11: `fadd`, `fsub`, `fmul` and `fdiv` of finite operands are the exact results rounded to nearest, ties to even (a
divisor not zero); beyond the largest finite value stands the infinity of the sign. -/
def Obligations.ArithmeticIsCorrectlyRounded : Prop :=
  ∀ a b : F64, f64IsFinite a = true → f64IsFinite b = true →
    IsRounded (fadd a b) (f64Int a + f64Int b) 1 ∧
    IsRounded (fsub a b) (f64Int a - f64Int b) 1 ∧
    IsRounded (fmul a b) (f64Int a * f64Int b) (2 ^ 1074) ∧
    (f64Int b ≠ 0 →
      IsRounded (fdiv a b) (f64Int a * 2 ^ 1074 * (if f64Sign b then -1 else 1)) (f64Units b))

-- Host programs

/-- 42_calibration.md R162: HKCAL is DECODE_HK, then CALIBRATE of the sample's id and raw value; of a frame with `HKT = 0`
it is NO_SAMPLE alone. Its second result is always OK (R123). That it passes operations already waiting in the inbox is the
model's choice (log 19). -/
def Obligations.HkcalDecodesThenCalibrates : Prop :=
  ∀ (s : State) (f : RawFrame) (vpc : F64) (unit : HardwareUnit),
    (frameHkt f = false →
      hkcal f vpc unit s = .next (.noSample, { s with results := s.results ++ [⟨s.active, .noSample⟩] })) ∧
    (frameHkt f = true →
      ∃ y, calibrateResult s.cfg (hkSample f).hkId (hkSample f).hkValueRaw vpc unit = .okValue y ∧
        hkcal f vpc unit s = .next
          (.calibrated (hkSample f) (some (.okValue y)),
            { s with results := s.results ++ [⟨s.active, .okHk (hkSample f)⟩, ⟨s.active, .okValue y⟩] }))
end

