-- ==== Sys2Proof/Laws/Decode.lean ====
section
/-! SUPPORT. Laws.Decode: the calibration decoder by its selector alone, so that a fact of it is a fact of 512 selectors. -/

namespace Sys2Proof

/-- A calibration row's instruction with CALIBRATE's other operands put in. -/
def calWith (raw : U16) (vpc : F64) : Instr → Instr
  | .calId0 unit _ _ => .calId0 unit raw vpc
  | .calId1 unit _ _ => .calId1 unit raw vpc
  | .calId2 unit _ _ => .calId2 unit raw vpc
  | .calId3 unit _ _ => .calId3 unit raw vpc
  | .calId4U1 _ _ => .calId4U1 raw vpc
  | .calId4U2 _ _ => .calId4U2 raw vpc
  | .calId5 unit _ _ => .calId5 unit raw vpc
  | .calId6U1 _ _ => .calId6U1 raw vpc
  | .calId6U2 _ _ => .calId6U2 raw vpc
  | .calId7 unit _ _ => .calId7 unit raw vpc
  | .calId8U1 _ _ => .calId8U1 raw vpc
  | .calId8U2 _ _ => .calId8U2 raw vpc
  | .calId9 unit _ _ => .calId9 unit raw vpc
  | .calId10 unit _ _ => .calId10 unit raw vpc
  | .calId11 unit _ _ => .calId11 unit raw vpc
  | .calId12 unit _ _ => .calId12 unit raw vpc
  | .calId13 unit _ _ => .calId13 unit raw vpc
  | .calId14 unit _ _ => .calId14 unit raw vpc
  | .calId15 unit _ _ => .calId15 unit raw vpc
  | .calUnknownA unit low _ _ => .calUnknownA unit low raw vpc
  | .calUnknownB unit low _ _ => .calUnknownB unit low raw vpc
  | .calUnknownC unit low _ _ => .calUnknownC unit low raw vpc
  | .calUnknownD unit low _ _ => .calUnknownD unit low raw vpc
  | .sync => .sync
  | .nosync win => .nosync win
  | .hkFrame f => .hkFrame f
  | .nonHkFrame f => .nonHkFrame f
  | .sciAnyW1 f => .sciAnyW1 f
  | .load b => .load b
  | .restart => .restart
  | .step => .step
  | .next => .next
  | .decodeSci f => .decodeSci f
  | .decodeHk f => .decodeHk f
  | .calibrate id r v unit => .calibrate id r v unit

/-- Which row a selector picks does not depend on the other operands. -/
theorem decodeCalSel_with (sel : Sel) (raw : U16) (vpc : F64) :
    decodeCalSel sel raw vpc = calWith raw vpc (decodeCalSel sel 0 0) := by
  unfold decodeCalSel
  generalize HardwareUnit.ofBit (Machine.selUnitBit sel) = unit
  generalize Machine.selId sel = id
  cases unit <;> simp only [apply_ite (calWith raw vpc)] <;> rfl

@[simp] theorem ofBit_bit (u : HardwareUnit) : HardwareUnit.ofBit u.bit = u := by cases u <;> rfl

@[simp] theorem bit_ofBit (b : Bool) : (HardwareUnit.ofBit b).bit = b := by cases b <;> rfl

@[simp] theorem selUnitBit_selOf (b : Bool) (id : Byte) : Machine.selUnitBit (Machine.selOf b id) = b := by
  revert b id; decide +kernel

@[simp] theorem selId_selOf (b : Bool) (id : Byte) : Machine.selId (Machine.selOf b id) = id := by
  revert b id; decide +kernel

@[simp] theorem selOf_parts (sel : Sel) : Machine.selOf (Machine.selUnitBit sel) (Machine.selId sel) = sel := by
  revert sel; decide +kernel

end Sys2Proof
end

