-- ==== Sys2Proof/Laws/Float.lean ====
section
/-! SUPPORT. Laws.Float: the fields of an encoded binary64 value, the NaN an operation returns, and rounding to a natural. -/

namespace Sys2Proof.Machine

theorem toNat_ofBool_append (s : Bool) {w : Nat} (x : BitVec w) :
    (BitVec.ofBool s ++ x).toNat = (if s then 2 ^ w else 0) + x.toNat := by
  have hx := x.isLt
  rw [BitVec.toNat_append]
  cases s with
  | false => simp
  | true =>
    rw [← Nat.shiftLeft_add_eq_or_of_lt hx]
    simp [Nat.one_shiftLeft]

theorem f64Pack_toNat (s : Bool) (low : Nat) :
    (f64Pack s low).toNat = (if s then 2 ^ 63 else 0) + low % 2 ^ 63 := by
  rw [f64Pack, toNat_ofBool_append, BitVec.toNat_ofNat]

theorem f64Sign_eq (a : F64) : f64Sign a = decide (2 ^ 63 ≤ a.toNat) := by
  have h := BitVec.msb_eq_decide a
  simpa [f64Sign, BitVec.msb_eq_getLsbD_last] using h

@[simp] theorem f64Sign_pack (s : Bool) (low : Nat) : f64Sign (f64Pack s low) = s := by
  rw [f64Sign_eq, f64Pack_toNat]
  cases s <;> simp <;> omega

theorem f64Exp_pack (s : Bool) (low : Nat) (h : low < 2 ^ 63) : f64Exp (f64Pack s low) = low / 2 ^ 52 := by
  rw [f64Exp, f64Pack_toNat]
  cases s <;> simp <;> omega

theorem f64Frac_pack (s : Bool) (low : Nat) : f64Frac (f64Pack s low) = low % 2 ^ 52 := by
  rw [f64Frac, f64Pack_toNat]
  cases s <;> simp <;> omega

theorem f64Exp_lt (a : F64) : f64Exp a < 2048 := Nat.mod_lt _ (by decide)

theorem f64Frac_lt (a : F64) : f64Frac a < 2 ^ 52 := Nat.mod_lt _ (by decide)

/-- The NaN an operation returns is a NaN, whatever its free bits are (log 9). -/
theorem f64NaN_isNaN (op : FpOp) (a b : F64) : f64IsNaN (f64NaN op a b) = true := by
  unfold f64NaN
  generalize Config.nanBits op a b = bits
  simp only
  generalize hp : (if bits.extractLsb' 0 52 = 0 then (1 : BitVec 52) else bits.extractLsb' 0 52) = p
  have hne : p ≠ 0 := by
    rw [← hp]
    split
    · decide
    · assumption
  have hpn : p.toNat ≠ 0 := fun hz => hne (BitVec.eq_of_toNat_eq (by simpa using hz))
  have hlt := p.isLt
  have hval : ((2047 : BitVec 11) ++ p).toNat = 2047 * 2 ^ 52 + p.toNat := by
    rw [BitVec.toNat_append, ← Nat.shiftLeft_add_eq_or_of_lt hlt, Nat.shiftLeft_eq]
    rfl
  have hall : (BitVec.ofBool (bits.getLsbD 52) ++ (2047 : BitVec 11) ++ p).toNat =
      (if bits.getLsbD 52 then 2 ^ 63 else 0) + (2047 * 2 ^ 52 + p.toNat) := by
    rw [BitVec.toNat_append, ← Nat.shiftLeft_add_eq_or_of_lt hlt, Nat.shiftLeft_eq, toNat_ofBool_append]
    cases bits.getLsbD 52 <;> simp <;> omega
  simp only [f64IsNaN, f64Exp, f64Frac, hall]
  cases bits.getLsbD 52 <;> simp <;> omega

/-- Rounding to a natural is within half the divisor, on either side. -/
theorem divHalfEven_near (n d : Nat) (hd : 0 < d) :
    2 * n ≤ 2 * (divHalfEven n d * d) + d ∧ 2 * (divHalfEven n d * d) ≤ 2 * n + d := by
  have h := Nat.div_add_mod n d
  have hr := Nat.mod_lt n hd
  rw [Nat.mul_comm] at h
  unfold divHalfEven
  simp only
  split
  · omega
  · split
    · rw [Nat.add_mul, Nat.one_mul]; omega
    · split
      · omega
      · rw [Nat.add_mul, Nat.one_mul]; omega

/-- A tie is rounded to the even neighbour. -/
theorem divHalfEven_even (n d : Nat) (hd : 0 < d)
    (h : 2 * n = 2 * (divHalfEven n d * d) + d ∨ 2 * (divHalfEven n d * d) = 2 * n + d) :
    divHalfEven n d % 2 = 0 := by
  have h1 := Nat.div_add_mod n d
  have hr := Nat.mod_lt n hd
  rw [Nat.mul_comm] at h1
  unfold divHalfEven at h ⊢
  simp only at h ⊢
  split
  · rename_i hlt
    simp only [hlt, if_true] at h
    omega
  · rename_i hlt
    simp only [hlt, if_false] at h
    split
    · rename_i hgt
      simp only [hgt, if_true, Nat.add_mul, Nat.one_mul] at h
      omega
    · rename_i hgt
      split
      · assumption
      · omega

/-- An exact quotient is not rounded. -/
theorem divHalfEven_exact (k d : Nat) (hd : 0 < d) : divHalfEven (k * d) d = k := by
  unfold divHalfEven
  simp [hd]

end Sys2Proof.Machine
end

