-- ==== Sys2Proof/Laws/Memory.lean ====
section
/-! SUPPORT. Laws.Memory: reading back a buffer LOAD has taken, the canonical form of BUF, and reads of several bytes. -/

namespace Sys2Proof.Machine

@[simp] theorem readByte_nil (off : Nat) : readByte [] off = none := rfl

theorem readByte_cons (a : Nat) (x : Byte) (m : Memory) (off : Nat) :
    readByte ((a, x) :: m) off = if off = a then some x else readByte m off := by
  unfold readByte
  by_cases h : off = a
  · simp [h]
  · simp [List.lookup_cons, beq_false_of_ne h, h]

/-- A byte of a buffer laid out from `base` on is the byte of the sequence at its distance from `base`. -/
theorem readByte_memoryOf (b : List Byte) (base off : Nat) :
    readByte (memoryOf base b) off = if off < base then none else b[off - base]? := by
  induction b generalizing base with
  | nil => simp [memoryOf]
  | cons x xs ih =>
    rw [memoryOf, readByte_cons, ih]
    by_cases h : off = base
    · subst h; simp
    · by_cases hlt : off < base
      · simp [h, hlt, Nat.lt_succ_of_lt hlt]
      · obtain ⟨k, rfl⟩ := Nat.exists_eq_add_of_lt (Nat.lt_of_le_of_ne (Nat.le_of_not_lt hlt) (Ne.symm h))
        rw [if_neg h, if_neg (by omega), if_neg (by omega), show base + k + 1 - base = k + 1 by omega,
          show base + k + 1 - (base + 1) = k by omega, List.getElem?_cons_succ]

theorem readByte_memoryOf_zero (b : List Byte) (off : Nat) : readByte (memoryOf 0 b) off = b[off]? := by
  simpa using readByte_memoryOf b 0 off

/-- A buffer LOAD lays out is in canonical form. -/
theorem memoryOf_wf (b : List Byte) (base : Nat) : Memory.wf (memoryOf base b) = true := by
  induction b generalizing base with
  | nil => rfl
  | cons x xs ih =>
    cases xs with
    | nil => rfl
    | cons y ys =>
      have := ih (base + 1)
      simp_all [memoryOf, Memory.wf]

/-- Several bytes read as a list of bytes read singly. -/
theorem readBytes_eq_some_iff (m : Memory) (off n : Nat) (bs : List Byte) :
    readBytes m off n = some bs ↔ bs.length = n ∧ ∀ k, k < n → readByte m (off + k) = bs[k]? := by
  induction n generalizing off bs with
  | zero => cases bs <;> simp [readBytes]
  | succ n ih =>
    constructor
    · intro h
      simp only [readBytes] at h
      split at h
      · rename_i b rest hb hr
        obtain ⟨hl, hk⟩ := (ih (off + 1) rest).1 hr
        cases h
        refine ⟨by simp [hl], fun k hlt => ?_⟩
        cases k with
        | zero => simpa using hb
        | succ k => simpa [Nat.add_assoc, Nat.add_comm 1] using hk k (by omega)
      · cases h
    · rintro ⟨hl, hk⟩
      cases bs with
      | nil => simp at hl
      | cons b rest =>
        have hb : readByte m off = some b := by simpa using hk 0 (by omega)
        have hr : readBytes m (off + 1) n = some rest := by
          refine (ih (off + 1) rest).2 ⟨by simpa using hl, fun k hlt => ?_⟩
          simpa [Nat.add_assoc, Nat.add_comm 1] using hk (k + 1) (by omega)
        simp [readBytes, hb, hr]

/-- A read of fewer bytes from the same offset is the beginning of the longer read. -/
theorem readBytes_take (m : Memory) (off n k : Nat) (bs : List Byte) (hk : k ≤ n)
    (h : readBytes m off n = some bs) : readBytes m off k = some (bs.take k) := by
  obtain ⟨hl, hb⟩ := (readBytes_eq_some_iff m off n bs).1 h
  refine (readBytes_eq_some_iff m off k _).2 ⟨by simp [hl, hk], fun j hj => ?_⟩
  rw [hb j (by omega), List.getElem?_take_of_lt hj]

/-- A read that fails meets an offset with no byte. -/
theorem readBytes_eq_none (m : Memory) (off n : Nat) (h : readBytes m off n = none) :
    ∃ k, k < n ∧ readByte m (off + k) = none := by
  induction n generalizing off with
  | zero => simp [readBytes] at h
  | succ n ih =>
    simp only [readBytes] at h
    cases hb : readByte m off with
    | none => exact ⟨0, by omega, by simpa using hb⟩
    | some b =>
      cases hr : readBytes m (off + 1) n with
      | none =>
        obtain ⟨k, hk, hn⟩ := ih (off + 1) hr
        exact ⟨k + 1, by omega, by simpa [Nat.add_assoc, Nat.add_comm 1] using hn⟩
      | some rest => simp [hb, hr] at h

/-- The range test of LOAD is the comparison R100 writes. -/
theorem lenFits_iff (cfg : Config) (b : List Byte) : lenFits cfg b = true ↔ b.length ≤ 2 ^ cfg.addrW - 1 := by
  cases b <;> simp [lenFits]

end Sys2Proof.Machine
end

