-- ==== Sys2Proof/Laws/PerInstr.lean ====
section
/-! SUPPORT. Laws.PerInstr: facts of every instruction as syntax, one lemma per constructor. -/

namespace Sys2Proof.Laws.RowMatch

/-- The words of a well-formed instruction are covered by the opcode-table row of its mnemonic (30_encoding.md R92). -/
def Statement (i : Instr) : Prop :=
  i.wf = true →
    match encode i with
    | .window w => (mnemonicOf i = "SYNC" ∧ w = Machine.marker) ∨ (mnemonicOf i = "NOSYNC" ∧ w ≠ Machine.marker)
    | .frameHk f => ∃ r ∈ w1Rows, r.mnemonic = mnemonicOf i ∧ r.covers (Machine.frameW1 f).toNat = true
    | .frameSci _ => mnemonicOf i = "SCI_ANY_W1"
    | .calSel sel _ _ => ∃ r ∈ calRows, r.mnemonic = mnemonicOf i ∧ r.covers sel.toNat = true
    | .hostCmd w => ∃ r ∈ hostRows, r.mnemonic = mnemonicOf i ∧ r.covers w.op.toNat = true

/-- Bit 31 of a 32-bit word, as the mask of the `frame_w1` rows takes it. -/
theorem hkt_mask (w : U32) :
    w.toNat &&& 0x80000000 = if Machine.w1Hkt w then 0x80000000 else 0 := by
  have hb : (0x80000000 : Nat) = 2 ^ 31 := rfl
  rw [hb, Machine.w1Hkt, BitVec.getLsbD]
  apply Nat.eq_of_testBit_eq
  intro j
  rw [Nat.testBit_and, Nat.testBit_two_pow]
  by_cases hj : 31 = j
  · subst hj
    cases w.toNat.testBit 31 <;> simp only [if_true, Nat.testBit_two_pow] <;> rfl
  · cases w.toNat.testBit 31 <;> simp only [if_true, Nat.testBit_two_pow, hj] <;> simp

theorem sync : Statement (.sync) := by
  intro _; exact .inl ⟨rfl, rfl⟩

theorem nosync (win : U32) : Statement (.nosync win) := by
  intro h; exact .inr ⟨rfl, by simpa [Instr.wf] using h⟩

theorem hkFrame (f : RawFrame) : Statement (.hkFrame f) := by
  intro h
  refine ⟨⟨"HK_FRAME", 0x80000000, 0x80000000⟩, by simp [w1Rows], rfl, ?_⟩
  have hb : Machine.w1Hkt (Machine.frameW1 f) = true := by simpa [Instr.wf, Machine.frameHkt] using h
  simp [Row.covers, hkt_mask, hb]

theorem nonHkFrame (f : RawFrame) : Statement (.nonHkFrame f) := by
  intro h
  refine ⟨⟨"NON_HK_FRAME", 0x00000000, 0x80000000⟩, by simp [w1Rows], rfl, ?_⟩
  have hb : Machine.w1Hkt (Machine.frameW1 f) = false := by simpa [Instr.wf, Machine.frameHkt] using h
  simp [Row.covers, hkt_mask, hb]

theorem sciAnyW1 (f : RawFrame) : Statement (.sciAnyW1 f) := by
  intro _; rfl

theorem calId0 (unit : HardwareUnit) (raw : U16) (vpc : F64) : Statement (.calId0 unit raw vpc) := by
  intro _
  cases unit <;> exact ⟨⟨"CAL_ID0", 0, 0x0FF⟩, by simp [calRows], rfl, by decide⟩

theorem calId1 (unit : HardwareUnit) (raw : U16) (vpc : F64) : Statement (.calId1 unit raw vpc) := by
  intro _
  cases unit <;> exact ⟨⟨"CAL_ID1", 1, 0x0FF⟩, by simp [calRows], rfl, by decide⟩

theorem calId2 (unit : HardwareUnit) (raw : U16) (vpc : F64) : Statement (.calId2 unit raw vpc) := by
  intro _
  cases unit <;> exact ⟨⟨"CAL_ID2", 2, 0x0FF⟩, by simp [calRows], rfl, by decide⟩

theorem calId3 (unit : HardwareUnit) (raw : U16) (vpc : F64) : Statement (.calId3 unit raw vpc) := by
  intro _
  cases unit <;> exact ⟨⟨"CAL_ID3", 3, 0x0FF⟩, by simp [calRows], rfl, by decide⟩

theorem calId4U1 (raw : U16) (vpc : F64) : Statement (.calId4U1 raw vpc) := by
  intro _
  exact ⟨⟨"CAL_ID4_U1", 0x4, 0x1FF⟩, by simp [calRows], rfl, by decide⟩

theorem calId4U2 (raw : U16) (vpc : F64) : Statement (.calId4U2 raw vpc) := by
  intro _
  exact ⟨⟨"CAL_ID4_U2", 0x104, 0x1FF⟩, by simp [calRows], rfl, by decide⟩

theorem calId5 (unit : HardwareUnit) (raw : U16) (vpc : F64) : Statement (.calId5 unit raw vpc) := by
  intro _
  cases unit <;> exact ⟨⟨"CAL_ID5", 5, 0x0FF⟩, by simp [calRows], rfl, by decide⟩

theorem calId6U1 (raw : U16) (vpc : F64) : Statement (.calId6U1 raw vpc) := by
  intro _
  exact ⟨⟨"CAL_ID6_U1", 0x6, 0x1FF⟩, by simp [calRows], rfl, by decide⟩

theorem calId6U2 (raw : U16) (vpc : F64) : Statement (.calId6U2 raw vpc) := by
  intro _
  exact ⟨⟨"CAL_ID6_U2", 0x106, 0x1FF⟩, by simp [calRows], rfl, by decide⟩

theorem calId7 (unit : HardwareUnit) (raw : U16) (vpc : F64) : Statement (.calId7 unit raw vpc) := by
  intro _
  cases unit <;> exact ⟨⟨"CAL_ID7", 7, 0x0FF⟩, by simp [calRows], rfl, by decide⟩

theorem calId8U1 (raw : U16) (vpc : F64) : Statement (.calId8U1 raw vpc) := by
  intro _
  exact ⟨⟨"CAL_ID8_U1", 0x8, 0x1FF⟩, by simp [calRows], rfl, by decide⟩

theorem calId8U2 (raw : U16) (vpc : F64) : Statement (.calId8U2 raw vpc) := by
  intro _
  exact ⟨⟨"CAL_ID8_U2", 0x108, 0x1FF⟩, by simp [calRows], rfl, by decide⟩

theorem calId9 (unit : HardwareUnit) (raw : U16) (vpc : F64) : Statement (.calId9 unit raw vpc) := by
  intro _
  cases unit <;> exact ⟨⟨"CAL_ID9", 9, 0x0FF⟩, by simp [calRows], rfl, by decide⟩

theorem calId10 (unit : HardwareUnit) (raw : U16) (vpc : F64) : Statement (.calId10 unit raw vpc) := by
  intro _
  cases unit <;> exact ⟨⟨"CAL_ID10", 10, 0x0FF⟩, by simp [calRows], rfl, by decide⟩

theorem calId11 (unit : HardwareUnit) (raw : U16) (vpc : F64) : Statement (.calId11 unit raw vpc) := by
  intro _
  cases unit <;> exact ⟨⟨"CAL_ID11", 11, 0x0FF⟩, by simp [calRows], rfl, by decide⟩

theorem calId12 (unit : HardwareUnit) (raw : U16) (vpc : F64) : Statement (.calId12 unit raw vpc) := by
  intro _
  cases unit <;> exact ⟨⟨"CAL_ID12", 12, 0x0FF⟩, by simp [calRows], rfl, by decide⟩

theorem calId13 (unit : HardwareUnit) (raw : U16) (vpc : F64) : Statement (.calId13 unit raw vpc) := by
  intro _
  cases unit <;> exact ⟨⟨"CAL_ID13", 13, 0x0FF⟩, by simp [calRows], rfl, by decide⟩

theorem calId14 (unit : HardwareUnit) (raw : U16) (vpc : F64) : Statement (.calId14 unit raw vpc) := by
  intro _
  cases unit <;> exact ⟨⟨"CAL_ID14", 14, 0x0FF⟩, by simp [calRows], rfl, by decide⟩

theorem calId15 (unit : HardwareUnit) (raw : U16) (vpc : F64) : Statement (.calId15 unit raw vpc) := by
  intro _
  cases unit <;> exact ⟨⟨"CAL_ID15", 15, 0x0FF⟩, by simp [calRows], rfl, by decide⟩

theorem calUnknownA (unit : HardwareUnit) (low : BitVec 7) (raw : U16) (vpc : F64) : Statement (.calUnknownA unit low raw vpc) := by
  intro _
  have h : ∀ (b : Bool) (l : BitVec 7), ∃ r ∈ calRows, r.mnemonic = "CAL_UNKNOWN_a" ∧
      r.covers (Machine.selOf b ((1 : BitVec 1) ++ l)).toNat = true := by
    decide +kernel
  exact h unit.bit low

theorem calUnknownB (unit : HardwareUnit) (low : BitVec 6) (raw : U16) (vpc : F64) : Statement (.calUnknownB unit low raw vpc) := by
  intro _
  have h : ∀ (b : Bool) (l : BitVec 6), ∃ r ∈ calRows, r.mnemonic = "CAL_UNKNOWN_b" ∧
      r.covers (Machine.selOf b ((1 : BitVec 2) ++ l)).toNat = true := by
    decide +kernel
  exact h unit.bit low

theorem calUnknownC (unit : HardwareUnit) (low : BitVec 5) (raw : U16) (vpc : F64) : Statement (.calUnknownC unit low raw vpc) := by
  intro _
  have h : ∀ (b : Bool) (l : BitVec 5), ∃ r ∈ calRows, r.mnemonic = "CAL_UNKNOWN_c" ∧
      r.covers (Machine.selOf b ((1 : BitVec 3) ++ l)).toNat = true := by
    decide +kernel
  exact h unit.bit low

theorem calUnknownD (unit : HardwareUnit) (low : BitVec 4) (raw : U16) (vpc : F64) : Statement (.calUnknownD unit low raw vpc) := by
  intro _
  have h : ∀ (b : Bool) (l : BitVec 4), ∃ r ∈ calRows, r.mnemonic = "CAL_UNKNOWN_d" ∧
      r.covers (Machine.selOf b ((1 : BitVec 4) ++ l)).toNat = true := by
    decide +kernel
  exact h unit.bit low

theorem load (b : List Byte) : Statement (.load b) := by
  intro _
  exact ⟨⟨"LOAD", 0x1, 0xFF⟩, by simp [hostRows], rfl, by simp [hostWordOf, Row.covers]⟩

theorem restart : Statement (.restart) := by
  intro _
  exact ⟨⟨"RESTART", 0x2, 0xFF⟩, by simp [hostRows], rfl, rfl⟩

theorem step : Statement (.step) := by
  intro _
  exact ⟨⟨"STEP", 0x3, 0xFF⟩, by simp [hostRows], rfl, rfl⟩

theorem next : Statement (.next) := by
  intro _
  exact ⟨⟨"NEXT", 0x4, 0xFF⟩, by simp [hostRows], rfl, rfl⟩

theorem decodeSci (f : RawFrame) : Statement (.decodeSci f) := by
  intro _
  exact ⟨⟨"DECODE_SCI", 0x10, 0xFF⟩, by simp [hostRows], rfl, by simp [hostWordOf, Row.covers]⟩

theorem decodeHk (f : RawFrame) : Statement (.decodeHk f) := by
  intro _
  exact ⟨⟨"DECODE_HK", 0x11, 0xFF⟩, by simp [hostRows], rfl, by simp [hostWordOf, Row.covers]⟩

theorem calibrate (id : Byte) (raw : U16) (vpc : F64) (unit : HardwareUnit) : Statement (.calibrate id raw vpc unit) := by
  intro _
  exact ⟨⟨"CALIBRATE", 0x20, 0xFF⟩, by simp [hostRows], rfl, by simp [hostWordOf, Row.covers]⟩

end Sys2Proof.Laws.RowMatch
end

