-- ==== Sys2Proof/Laws/State.lean ====
section
/-! SUPPORT. Laws.State: one lemma per field per update of the state, and what recording a fault comes to. -/

namespace Sys2Proof.Machine

@[simp] theorem record_cfg (e : Event) (s : State) : (record e s).cfg = s.cfg := rfl
@[simp] theorem record_buf (e : Event) (s : State) : (record e s).buf = s.buf := rfl
@[simp] theorem record_len (e : Event) (s : State) : (record e s).len = s.len := rfl
@[simp] theorem record_loaded (e : Event) (s : State) : (record e s).loaded = s.loaded := rfl
@[simp] theorem record_cur (e : Event) (s : State) : (record e s).cur = s.cur := rfl
@[simp] theorem record_faultMark (e : Event) (s : State) : (record e s).faultMark = s.faultMark := rfl
@[simp] theorem record_hist (e : Event) (s : State) : (record e s).hist = s.hist ++ [e] := rfl
@[simp] theorem record_inbox (e : Event) (s : State) : (record e s).inbox = s.inbox := rfl
@[simp] theorem record_laneOrder (e : Event) (s : State) : (record e s).laneOrder = s.laneOrder := rfl
@[simp] theorem record_active (e : Event) (s : State) : (record e s).active = s.active := rfl
@[simp] theorem record_results (e : Event) (s : State) : (record e s).results = s.results := rfl

@[simp] theorem complete_cfg (r : Result) (s : State) : (complete r s).cfg = s.cfg := rfl
@[simp] theorem complete_buf (r : Result) (s : State) : (complete r s).buf = s.buf := rfl
@[simp] theorem complete_len (r : Result) (s : State) : (complete r s).len = s.len := rfl
@[simp] theorem complete_loaded (r : Result) (s : State) : (complete r s).loaded = s.loaded := rfl
@[simp] theorem complete_cur (r : Result) (s : State) : (complete r s).cur = s.cur := rfl
@[simp] theorem complete_faultMark (r : Result) (s : State) : (complete r s).faultMark = s.faultMark := rfl
@[simp] theorem complete_hist (r : Result) (s : State) : (complete r s).hist = s.hist := rfl
@[simp] theorem complete_inbox (r : Result) (s : State) : (complete r s).inbox = s.inbox := rfl
@[simp] theorem complete_laneOrder (r : Result) (s : State) : (complete r s).laneOrder = s.laneOrder := rfl
@[simp] theorem complete_active (r : Result) (s : State) : (complete r s).active = s.active := rfl
@[simp] theorem complete_results (r : Result) (s : State) : (complete r s).results = s.results ++ [⟨s.active, r⟩] := rfl

@[simp] theorem scanEnd_cfg (s : State) : (scanEnd s).cfg = s.cfg := rfl
@[simp] theorem scanEnd_buf (s : State) : (scanEnd s).buf = s.buf := rfl
@[simp] theorem scanEnd_len (s : State) : (scanEnd s).len = s.len := rfl
@[simp] theorem scanEnd_loaded (s : State) : (scanEnd s).loaded = s.loaded := rfl
@[simp] theorem scanEnd_cur (s : State) : (scanEnd s).cur = s.cur := rfl
@[simp] theorem scanEnd_faultMark (s : State) : (scanEnd s).faultMark = s.faultMark := rfl
@[simp] theorem scanEnd_hist (s : State) : (scanEnd s).hist = s.hist ++ [.ended s.cur] := rfl
@[simp] theorem scanEnd_inbox (s : State) : (scanEnd s).inbox = s.inbox := rfl
@[simp] theorem scanEnd_laneOrder (s : State) : (scanEnd s).laneOrder = s.laneOrder := rfl
@[simp] theorem scanEnd_active (s : State) : (scanEnd s).active = s.active := rfl
@[simp] theorem scanEnd_results (s : State) : (scanEnd s).results = s.results := rfl

@[simp] theorem scanSkip_cfg (s : State) : (scanSkip s).cfg = s.cfg := rfl
@[simp] theorem scanSkip_buf (s : State) : (scanSkip s).buf = s.buf := rfl
@[simp] theorem scanSkip_len (s : State) : (scanSkip s).len = s.len := rfl
@[simp] theorem scanSkip_loaded (s : State) : (scanSkip s).loaded = s.loaded := rfl
@[simp] theorem scanSkip_cur (s : State) : (scanSkip s).cur = s.cur + 1 := rfl
@[simp] theorem scanSkip_faultMark (s : State) : (scanSkip s).faultMark = s.faultMark := rfl
@[simp] theorem scanSkip_hist (s : State) : (scanSkip s).hist = s.hist ++ [.skip s.cur] := rfl
@[simp] theorem scanSkip_inbox (s : State) : (scanSkip s).inbox = s.inbox := rfl
@[simp] theorem scanSkip_laneOrder (s : State) : (scanSkip s).laneOrder = s.laneOrder := rfl
@[simp] theorem scanSkip_active (s : State) : (scanSkip s).active = s.active := rfl
@[simp] theorem scanSkip_results (s : State) : (scanSkip s).results = s.results := rfl

@[simp] theorem scanEmit_cfg (f : RawFrame) (s : State) : (scanEmit f s).cfg = s.cfg := rfl
@[simp] theorem scanEmit_buf (f : RawFrame) (s : State) : (scanEmit f s).buf = s.buf := rfl
@[simp] theorem scanEmit_len (f : RawFrame) (s : State) : (scanEmit f s).len = s.len := rfl
@[simp] theorem scanEmit_loaded (f : RawFrame) (s : State) : (scanEmit f s).loaded = s.loaded := rfl
@[simp] theorem scanEmit_cur (f : RawFrame) (s : State) : (scanEmit f s).cur = s.cur + 16 := rfl
@[simp] theorem scanEmit_faultMark (f : RawFrame) (s : State) : (scanEmit f s).faultMark = s.faultMark := rfl
@[simp] theorem scanEmit_hist (f : RawFrame) (s : State) : (scanEmit f s).hist = s.hist ++ [.emit s.cur f] := rfl
@[simp] theorem scanEmit_inbox (f : RawFrame) (s : State) : (scanEmit f s).inbox = s.inbox := rfl
@[simp] theorem scanEmit_laneOrder (f : RawFrame) (s : State) : (scanEmit f s).laneOrder = s.laneOrder := rfl
@[simp] theorem scanEmit_active (f : RawFrame) (s : State) : (scanEmit f s).active = s.active := rfl
@[simp] theorem scanEmit_results (f : RawFrame) (s : State) : (scanEmit f s).results = s.results := rfl

@[simp] theorem issueFirst_cfg (tag : Nat) (w : HostWord) (s : State) : (issueFirst tag w s).cfg = s.cfg := rfl
@[simp] theorem issueFirst_buf (tag : Nat) (w : HostWord) (s : State) : (issueFirst tag w s).buf = s.buf := rfl
@[simp] theorem issueFirst_len (tag : Nat) (w : HostWord) (s : State) : (issueFirst tag w s).len = s.len := rfl
@[simp] theorem issueFirst_loaded (tag : Nat) (w : HostWord) (s : State) : (issueFirst tag w s).loaded = s.loaded := rfl
@[simp] theorem issueFirst_cur (tag : Nat) (w : HostWord) (s : State) : (issueFirst tag w s).cur = s.cur := rfl
@[simp] theorem issueFirst_faultMark (tag : Nat) (w : HostWord) (s : State) : (issueFirst tag w s).faultMark = s.faultMark := rfl
@[simp] theorem issueFirst_hist (tag : Nat) (w : HostWord) (s : State) : (issueFirst tag w s).hist = s.hist := rfl
@[simp] theorem issueFirst_inbox (tag : Nat) (w : HostWord) (s : State) : (issueFirst tag w s).inbox = ⟨tag, w⟩ :: s.inbox := rfl
@[simp] theorem issueFirst_laneOrder (tag : Nat) (w : HostWord) (s : State) : (issueFirst tag w s).laneOrder = 0 :: s.laneOrder := rfl
@[simp] theorem issueFirst_active (tag : Nat) (w : HostWord) (s : State) : (issueFirst tag w s).active = s.active := rfl
@[simp] theorem issueFirst_results (tag : Nat) (w : HostWord) (s : State) : (issueFirst tag w s).results = s.results := rfl

/-- What recording a fault comes to: the mark is set, nothing else changes, and a clear mark takes the reason given. -/
theorem recordFault_spec (why : FaultReason) (s : State) :
    ∃ m, recordFault why s = { s with faultMark := some m } ∧ (s.faultMark = none → m = why) ∧
      (∀ old, s.faultMark = some old → m = old) := by
  unfold recordFault
  cases h : s.faultMark with
  | none => exact ⟨why, by simp, by simp, by simp⟩
  | some old => exact ⟨old, by cases s; simp_all, by simp, by simp⟩

@[simp] theorem recordFault_cfg (why : FaultReason) (s : State) : (recordFault why s).cfg = s.cfg := by
  unfold recordFault; split <;> rfl
@[simp] theorem recordFault_buf (why : FaultReason) (s : State) : (recordFault why s).buf = s.buf := by
  unfold recordFault; split <;> rfl
@[simp] theorem recordFault_len (why : FaultReason) (s : State) : (recordFault why s).len = s.len := by
  unfold recordFault; split <;> rfl
@[simp] theorem recordFault_loaded (why : FaultReason) (s : State) : (recordFault why s).loaded = s.loaded := by
  unfold recordFault; split <;> rfl
@[simp] theorem recordFault_cur (why : FaultReason) (s : State) : (recordFault why s).cur = s.cur := by
  unfold recordFault; split <;> rfl
@[simp] theorem recordFault_faultMark (why : FaultReason) (s : State) :
    (recordFault why s).faultMark = some (s.faultMark.getD why) := by
  unfold recordFault; split <;> simp_all
@[simp] theorem recordFault_hist (why : FaultReason) (s : State) : (recordFault why s).hist = s.hist := by
  unfold recordFault; split <;> rfl
@[simp] theorem recordFault_inbox (why : FaultReason) (s : State) : (recordFault why s).inbox = s.inbox := by
  unfold recordFault; split <;> rfl
@[simp] theorem recordFault_laneOrder (why : FaultReason) (s : State) : (recordFault why s).laneOrder = s.laneOrder := by
  unfold recordFault; split <;> rfl
@[simp] theorem recordFault_active (why : FaultReason) (s : State) : (recordFault why s).active = s.active := by
  unfold recordFault; split <;> rfl
@[simp] theorem recordFault_results (why : FaultReason) (s : State) : (recordFault why s).results = s.results := by
  unfold recordFault; split <;> rfl

end Sys2Proof.Machine
end

