-- ==== Sys2Proof/Laws/Scanner.lean ====
section
/-! SUPPORT. Laws.Scanner: what one examined position and a whole NEXT can come to, and the marker as bytes and as a word. -/

namespace Sys2Proof.Machine

theorem beValue_append (xs ys : List Byte) : beValue (xs ++ ys) = beValue xs * 256 ^ ys.length + beValue ys := by
  have aux : ∀ (zs : List Byte) (acc : Nat),
      zs.foldl (fun acc b => acc * 256 + b.toNat) acc = acc * 256 ^ zs.length + beValue zs := by
    intro zs
    induction zs with
    | nil => simp [beValue]
    | cons z zs ih =>
      intro acc
      simp only [beValue, List.foldl_cons, List.length_cons]
      rw [ih, ih (0 * 256 + z.toNat), Nat.pow_succ]
      simp only [Nat.zero_mul, Nat.zero_add, Nat.add_mul, Nat.add_assoc]
      congr 1
      rw [Nat.mul_assoc, Nat.mul_comm 256]
  rw [beValue, List.foldl_append, aux]
  rfl

theorem beValue_lt (bs : List Byte) : beValue bs < 256 ^ bs.length := by
  induction bs with
  | nil => simp [beValue]
  | cons b bs ih =>
    have h := beValue_append [b] bs
    have hb : beValue [b] = b.toNat := by simp [beValue]
    have := b.isLt
    rw [List.singleton_append, hb] at h
    rw [h, List.length_cons, Nat.pow_succ, Nat.mul_comm (256 ^ bs.length)]
    calc b.toNat * 256 ^ bs.length + beValue bs < b.toNat * 256 ^ bs.length + 256 ^ bs.length := by omega
      _ = (b.toNat + 1) * 256 ^ bs.length := by rw [Nat.add_mul, Nat.one_mul]
      _ ≤ 256 * 256 ^ bs.length := Nat.mul_le_mul_right _ (by omega)

/-- Four bytes are the marker's exactly when their big-endian word is (20_memory.md R52). -/
theorem windowOfBytes_eq_marker_iff (bs : List Byte) (h : bs.length = 4) :
    windowOfBytes bs = marker ↔ bs = markerBytes := by
  match bs, h with
  | [a, b, c, d], _ =>
    have ha := a.isLt
    have hb := b.isLt
    have hc := c.isLt
    have hd := d.isLt
    constructor
    · intro hw
      have hn := congrArg BitVec.toNat hw
      have hk : marker.toNat = 0xFE6B2840 := by decide
      rw [hk] at hn
      simp only [windowOfBytes, beValue, List.foldl, BitVec.toNat_ofNat] at hn
      have h1 : a.toNat = 0xFE := by omega
      have h2 : b.toNat = 0x6B := by omega
      have h3 : c.toNat = 0x28 := by omega
      have h4 : d.toNat = 0x40 := by omega
      simp only [markerBytes, List.cons.injEq, and_true]
      exact ⟨BitVec.eq_of_toNat_eq h1, BitVec.eq_of_toNat_eq h2, BitVec.eq_of_toNat_eq h3, BitVec.eq_of_toNat_eq h4⟩
    · intro hm
      rw [hm]
      decide

/-- Everything one STEP can come to (R102). -/
theorem scanStep_cases (s : State) :
    (s.loaded = false ∧ scanStep s = .noBuffer) ∨
    (s.loaded = true ∧ s.len < s.cur + 16 ∧ scanStep s = .ended (scanEnd s)) ∨
    (s.loaded = true ∧ s.cur + 16 ≤ s.len ∧ scanStep s = .hole s.cur ∧ readBytes s.buf s.cur 16 = none) ∨
    (∃ bs, s.loaded = true ∧ s.cur + 16 ≤ s.len ∧ readBytes s.buf s.cur 16 = some bs ∧ bs.take 4 = markerBytes ∧
      scanStep s = .emitted (frameOfBytes bs) (scanEmit (frameOfBytes bs) s)) ∨
    (∃ w, s.loaded = true ∧ s.cur + 16 ≤ s.len ∧ readBytes s.buf s.cur 4 = some w ∧ w ≠ markerBytes ∧
      scanStep s = .skipped (scanSkip s)) := by
  unfold scanStep scanGuard
  cases hl : s.loaded with
  | false => simp
  | true =>
    by_cases he : s.len < s.cur + 16
    · simp [atEnd, he]
    · have hle : s.cur + 16 ≤ s.len := by omega
      simp only [atEnd, he, rowOfWindow]
      cases hw : readBytes s.buf s.cur 4 with
      | none =>
        have hn : readBytes s.buf s.cur 16 = none := by
          cases hf : readBytes s.buf s.cur 16 with
          | none => rfl
          | some bs => rw [readBytes_take _ _ _ 4 bs (by omega) hf] at hw; cases hw
        simp [hle, hn]
      | some w =>
        have hlen := ((readBytes_eq_some_iff _ _ _ _).1 hw).1
        by_cases hm : windowOfBytes w = marker
        · cases hf : readBytes s.buf s.cur 16 with
          | none => simp [hm, hle, rowSync, hf]
          | some bs =>
            have ht := readBytes_take _ _ _ 4 bs (by omega) hf
            rw [hw] at ht
            have hb : bs.take 4 = markerBytes := by
              rw [← Option.some.inj ht]; exact (windowOfBytes_eq_marker_iff w hlen).1 hm
            simp [hm, hle, rowSync, hf, hb]
        · have hb : w ≠ markerBytes := fun h => hm ((windowOfBytes_eq_marker_iff w hlen).2 h)
          simp [hm, hle, rowNosync, hb]

theorem scanStep_noBuffer {s : State} (h : s.loaded = false) : scanStep s = .noBuffer := by
  simp [scanStep, scanGuard, h]

theorem scanStep_ended {s : State} (h : s.loaded = true) (he : s.len < s.cur + 16) :
    scanStep s = .ended (scanEnd s) := by
  simp [scanStep, scanGuard, h, atEnd, he]

theorem scanStep_emitted {s : State} {bs : List Byte} (h : s.loaded = true) (hle : s.cur + 16 ≤ s.len)
    (hr : readBytes s.buf s.cur 16 = some bs) (hm : bs.take 4 = markerBytes) :
    scanStep s = .emitted (frameOfBytes bs) (scanEmit (frameOfBytes bs) s) := by
  have hlen := ((readBytes_eq_some_iff _ _ _ _).1 hr).1
  have hw := (windowOfBytes_eq_marker_iff (bs.take 4) (by simp [hlen])).2 hm
  simp [scanStep, scanGuard, h, atEnd, Nat.not_lt.2 hle, rowOfWindow,
    readBytes_take _ _ _ 4 bs (by omega) hr, hw, rowSync, hr]

theorem scanStep_skipped {s : State} {w : List Byte} (h : s.loaded = true) (hle : s.cur + 16 ≤ s.len)
    (hr : readBytes s.buf s.cur 4 = some w) (hm : w ≠ markerBytes) : scanStep s = .skipped (scanSkip s) := by
  have hlen := ((readBytes_eq_some_iff _ _ _ _).1 hr).1
  have hw : windowOfBytes w ≠ marker := fun hh => hm ((windowOfBytes_eq_marker_iff w hlen).1 hh)
  simp [scanStep, scanGuard, h, atEnd, Nat.not_lt.2 hle, rowOfWindow, hr, hw, rowNosync]

/-- The state after skipping `n` positions, each leaving its event. -/
def skipped (n : Nat) (s : State) : State :=
  { s with cur := s.cur + n, hist := s.hist ++ (List.range' s.cur n).map Event.skip }

@[simp] theorem skipped_zero (s : State) : skipped 0 s = s := by simp [skipped]

theorem skipped_scanSkip (n : Nat) (s : State) : skipped n (scanSkip s) = skipped (n + 1) s := by
  simp [skipped, scanSkip, record, List.range'_succ, Nat.add_assoc, Nat.add_comm 1]

/-- NEXT over `n` positions without the marker is NEXT from the position after them, as long as its fuel reaches. -/
theorem scanNext_skip (n fuel : Nat) (s : State) (h : s.loaded = true) (hf : s.cur + n + 15 ≤ s.len)
    (hw : ∀ p, s.cur ≤ p → p < s.cur + n → ∃ w, readBytes s.buf p 4 = some w ∧ w ≠ markerBytes) :
    scanNext (fuel + n) s = scanNext fuel (skipped n s) := by
  induction n generalizing s with
  | zero => simp
  | succ n ih =>
    obtain ⟨w, hr, hm⟩ := hw s.cur (by omega) (by omega)
    rw [← Nat.add_assoc, scanNext, scanStep_skipped h (by omega) hr hm]
    simp only
    rw [ih (scanSkip s) (by simpa using h) (by simp; omega) (fun p h1 h2 => hw p (by simp at h1; omega) (by simp at h2; omega)),
      skipped_scanSkip]

/-- Every way a NEXT can come out, by the position it comes to (R103): `n` positions skipped, then one STEP that does not
skip. -/
theorem scanNext_cases (fuel : Nat) (s : State) (h : s.loaded = true) (hf : fuel = s.len - 15 - s.cur) :
    ∃ n, n ≤ fuel ∧ (0 < n → s.cur + n + 15 ≤ s.len) ∧ scanNext fuel s = scanStep (skipped n s) ∧
      (∀ t, scanStep (skipped n s) ≠ .skipped t) ∧
      ∀ p, s.cur ≤ p → p < s.cur + n → ∃ w, readBytes s.buf p 4 = some w ∧ w ≠ markerBytes := by
  induction fuel generalizing s with
  | zero =>
    refine ⟨0, Nat.le_refl _, by omega, by simp [scanNext], fun t => ?_, fun p h1 h2 => by omega⟩
    rw [skipped_zero, scanStep_ended h (by omega)]
    simp
  | succ fuel ih =>
    rcases scanStep_cases s with ⟨hl, _⟩ | ⟨_, he, _⟩ | ⟨_, _, hs, _⟩ | ⟨bs, _, _, _, _, hs⟩ | ⟨w, _, hle, hr, hm, hs⟩
    · rw [h] at hl; cases hl
    · omega
    · exact ⟨0, by omega, by omega, by simp [scanNext, hs], by simp [hs], fun p h1 h2 => by omega⟩
    · exact ⟨0, by omega, by omega, by simp [scanNext, hs], by simp [hs], fun p h1 h2 => by omega⟩
    · obtain ⟨n, hn, hb, heq, hne, hw⟩ := ih (scanSkip s) (by simpa using h) (by simp; omega)
      rw [skipped_scanSkip] at heq hne
      refine ⟨n + 1, by omega, fun _ => ?_, by rw [scanNext, hs]; exact heq, hne, fun p h1 h2 => ?_⟩
      · rcases Nat.eq_zero_or_pos n with rfl | hp
        · omega
        · have := hb hp; simp at this; omega
      · by_cases hp : p = s.cur
        · exact ⟨w, by rw [hp]; exact hr, hm⟩
        · exact hw p (by simp; omega) (by simp; omega)

end Sys2Proof.Machine
end

