-- ==== Sys2Proof/Machine/Assembly.lean ====
section
/-! DEFINITION. Assembly: the text form of host programs (30_encoding.md R89, R90, R91). It reads characters into the
commands of HostProgram; the block never sees it. What the grammar leaves open is in log 20. -/

namespace Sys2Proof.Machine

/-- A token: a run of characters other than blanks, `,` and `:`, or one of the latter two alone. -/
abbrev Token := List Char

/-- Why a line is no line of R89. -/
inductive AsmError where
  | badCommand
  | badBytes
  | badFrame
  | badNumber
  | badFloat
  | badUnit
  deriving DecidableEq, Repr

/-- A finished token, dropped when it is empty. -/
def closeToken (cur : Token) (rest : List Token) : List Token := if cur.isEmpty then rest else cur.reverse :: rest

/-- The tokens of a line, the current one held in reverse. -/
def tokensFrom (cur : Token) : List Char → List Token
  | [] => closeToken cur []
  | c :: cs =>
    if c = ' ' ∨ c = '\t' ∨ c = '\r' then closeToken cur (tokensFrom [] cs)
    else if c = ',' ∨ c = ':' then closeToken cur ([c] :: tokensFrom [] cs)
    else tokensFrom (c :: cur) cs

/-- A line's tokens; from `;` on stands a comment, which is ignored (R89). -/
def tokensOf (line : List Char) : List Token := tokensFrom [] (line.takeWhile (· != ';'))

/-- The value of a digit below `base`. -/
def digitOf (base : Nat) (c : Char) : Option Nat :=
  let n := c.toNat
  let v :=
    if 48 ≤ n ∧ n ≤ 57 then n - 48
    else if 65 ≤ n ∧ n ≤ 70 then n - 55
    else if 97 ≤ n ∧ n ≤ 102 then n - 87
    else 99
  if v < base then some v else none

/-- The value of a run of digits, appended to `acc`. -/
def digitsFrom (base : Nat) (acc : Nat) : List Char → Option Nat
  | [] => some acc
  | c :: cs =>
    match digitOf base c with
    | some d => digitsFrom base (acc * base + d) cs
    | none => none

/-- A run of one digit or more. -/
def digitsOf (base : Nat) (cs : List Char) : Option Nat := if cs.isEmpty then none else digitsFrom base 0 cs

/-- A decimal or 0x-hex integer (R89). -/
def natOf : Token → Option Nat
  | '0' :: 'x' :: cs => digitsOf 16 cs
  | cs => digitsOf 10 cs

/-- The bytes of hex digits taken in pairs (R91). -/
def hexPairs : List Char → Option (List Byte)
  | [] => some []
  | [_] => none
  | a :: b :: cs =>
    match digitOf 16 a, digitOf 16 b, hexPairs cs with
    | some x, some y, some bs => some (BitVec.ofNat 8 (x * 16 + y) :: bs)
    | _, _, _ => none

/-- The bytes of hex tokens; "optionally grouped by field" (R91), each token a whole number of bytes. -/
def bytesOf : List Token → Option (List Byte)
  | [] => some []
  | t :: ts =>
    match hexPairs t, bytesOf ts with
    | some b, some bs => some (b ++ bs)
    | _, _ => none

/-- A frame operand: 16 hex byte pairs, or `$k` (R89). -/
def frameArgOf (ts : List Token) : Option FrameArg :=
  match ts with
  | [('$' :: k)] => (digitsOf 10 k).map .emitted
  | _ =>
    match bytesOf ts with
    | some bs => if bs.length = 16 then some (.lit (frameOfBytes bs)) else none
    | none => none

/-- `U1` or `U2` (R89). -/
def unitOf : Token → Option HardwareUnit
  | ['U', '1'] => some .unit1
  | ['U', '2'] => some .unit2
  | _ => none

/-- A run split at the first character that meets a test: what comes before it, and what comes after it, if it stands. -/
def splitAtChar (p : Char → Bool) (cs : List Char) : List Char × Option (List Char) :=
  match cs.dropWhile (fun c => !p c) with
  | [] => (cs, none)
  | _ :: after => (cs.takeWhile (fun c => !p c), some after)

/-- An optional sign. -/
def signOf : List Char → Bool × List Char
  | '-' :: cs => (true, cs)
  | '+' :: cs => (false, cs)
  | cs => (false, cs)

/-- A signed decimal exponent. -/
def exponentOf (cs : List Char) : Option Int :=
  match signOf cs with
  | (neg, ds) => (digitsOf 10 ds).map fun n => if neg then -(n : Int) else (n : Int)

/-- `m * base^e` rounded to binary64 (`lit`, 00_scope.md R11). -/
def scaledLit (neg : Bool) (m base : Nat) (e : Int) : F64 :=
  if 0 ≤ e then roundRat neg (m * base ^ e.toNat) 1 else roundRat neg m (base ^ e.natAbs)

/-- The digits of a mantissa with an optional point: the value without the point, and how many digits follow it. -/
def mantissaOf (base : Nat) (cs : List Char) : Option (Nat × Nat) :=
  match splitAtChar (· == '.') cs with
  | (whole, none) => (digitsOf base whole).map fun m => (m, 0)
  | (whole, some frac) => (digitsOf base (whole ++ frac)).map fun m => (m, frac.length)

/-- A binary64 literal, decimal or C99 hex-float (R89). -/
def floatOf (t : Token) : Option F64 :=
  match signOf t with
  | (neg, '0' :: 'x' :: cs) =>
    match splitAtChar (fun c => c == 'p' || c == 'P') cs with
    | (mant, some ex) =>
      match mantissaOf 16 mant, exponentOf ex with
      | some (m, places), some e => some (scaledLit neg m 2 (e - 4 * (places : Int)))
      | _, _ => none
    | (_, none) => none
  | (neg, cs) =>
    match splitAtChar (fun c => c == 'e' || c == 'E') cs with
    | (mant, some ex) =>
      match mantissaOf 10 mant, exponentOf ex with
      | some (m, places), some e => some (scaledLit neg m 10 (e - (places : Int)))
      | _, _ => none
    | (mant, none) => (mantissaOf 10 mant).map fun mp => scaledLit neg mp.1 10 (-(mp.2 : Int))

/-- CALIBRATE's operands `id ',' raw ',' vpc ',' unit` (R89). -/
def calibrateOf : List Token → Except AsmError Command
  | [id, [','], raw, [','], vpc, [','], unit] =>
    match natOf id, natOf raw, floatOf vpc, unitOf unit with
    | some i, some r, some v, some u =>
      if i < 256 ∧ r < 65536 then .ok (.calibrate (BitVec.ofNat 8 i) (BitVec.ofNat 16 r) v u) else .error .badNumber
    | none, _, _, _ => .error .badNumber
    | _, none, _, _ => .error .badNumber
    | _, _, none, _ => .error .badFloat
    | _, _, _, none => .error .badUnit
  | _ => .error .badCommand

/-- HKCAL's operands `frame, vpc, unit` (R90). -/
def hkcalOf (ts : List Token) : Except AsmError Command :=
  match ts.dropWhile (· != [',']) with
  | [[','], vpc, [','], unit] =>
    match frameArgOf (ts.takeWhile (· != [','])), floatOf vpc, unitOf unit with
    | some f, some v, some u => .ok (.hkcal f v u)
    | none, _, _ => .error .badFrame
    | _, none, _ => .error .badFloat
    | _, _, none => .error .badUnit
  | _ => .error .badCommand

/-- A command's name and operands (R89, R90). -/
def commandOf (name : Token) (args : List Token) : Except AsmError Command :=
  if name = ['L', 'O', 'A', 'D'] then
    match bytesOf args with
    | some b => .ok (.load b)
    | none => .error .badBytes
  else if name = ['R', 'E', 'S', 'T', 'A', 'R', 'T'] ∧ args = [] then .ok .restart
  else if name = ['S', 'T', 'E', 'P'] ∧ args = [] then .ok .step
  else if name = ['N', 'E', 'X', 'T'] ∧ args = [] then .ok .next
  else if name = ['S', 'C', 'A', 'N', 'A', 'L', 'L'] ∧ args = [] then .ok .scanall
  else if name = ['D', 'E', 'C', 'O', 'D', 'E', '_', 'S', 'C', 'I'] then
    match frameArgOf args with
    | some f => .ok (.decodeSci f)
    | none => .error .badFrame
  else if name = ['D', 'E', 'C', 'O', 'D', 'E', '_', 'H', 'K'] then
    match frameArgOf args with
    | some f => .ok (.decodeHk f)
    | none => .error .badFrame
  else if name = ['C', 'A', 'L', 'I', 'B', 'R', 'A', 'T', 'E'] then calibrateOf args
  else if name = ['H', 'K', 'C', 'A', 'L'] then hkcalOf args
  else .error .badCommand

/-- A line of a program: its label, if any, and its command (R89). The grammar does not define `label`; here it is any one
token (log 20). -/
structure AsmLine where
  label : Option Token
  command : Command
  deriving DecidableEq, Repr

/-- Read one line; a line with no tokens holds no command. R89 does not define `label`; the model takes any one token before
a `:`, be it a command's name or a number, lets labels repeat, and gives them no effect (log 20). -/
def assembleLine (line : List Char) : Except AsmError (Option AsmLine) :=
  match tokensOf line with
  | [] => .ok none
  | label :: [':'] :: name :: args => (commandOf name args).map fun c => some ⟨some label, c⟩
  | name :: args => (commandOf name args).map fun c => some ⟨none, c⟩

/-- Read a program, line by line (R89: `program := line*`). -/
def assemble : List (List Char) → Except AsmError (List AsmLine)
  | [] => .ok []
  | l :: ls =>
    match assembleLine l, assemble ls with
    | .ok (some a), .ok as => .ok (a :: as)
    | .ok none, .ok as => .ok as
    | .error e, _ => .error e
    | _, .error e => .error e

end Sys2Proof.Machine
end

