-- ==== Sys2Proof/Tests/Slice0.lean ====
section
/-! SUPPORT. Tests.Slice0: words written out from the spec's encodings, the spec's vectors (95_test_vectors.md), the smoke test
of WellFormed, and for every statement with hypotheses a state and operands that meet them. -/

namespace Sys2Proof.Tests

open Sys2Proof.Machine

-- One theorem is checked at a time, so that the many small evaluations below do not each hold a thread.
set_option Elab.async false

-- Helpers

/-- The next state of an outcome. -/
def stateOf (o : Host.Outcome State Fault Refusal) : Option State :=
  match o with
  | .next s => some s
  | .fault _ => none
  | .refused _ => none

/-- The results a step returned from a state that had none. -/
def resultsOf (o : Host.Outcome State Fault Refusal) : Option (List Result) :=
  (stateOf o).map fun s => s.results.map Completion.result

/-- The test configuration of 95_test_vectors.md: full scale 4.0, so that VPC_SCI = 2^-14; any ADDR_W. -/
def testConfig (addrW : Nat) : Config :=
  { addrW := addrW, fullScaleSci := 0x4010000000000000, vpcHk := 0x3F10000000000000, kcal := kcalSource, fpEval := .d7 }

/-- Reset under the test configuration. -/
def testReset (addrW : Nat) : State := { State.reset with cfg := testConfig addrW }

/-- A loaded buffer with the cursor somewhere. -/
def loadedState (b : List Byte) (cur : Nat) : State :=
  { testReset 16 with buf := memoryOf 0 b, len := b.length, loaded := true, cur := cur }

/-- `2^-14`, the test value of `vpc`. -/
def vpc14 : F64 := 0x3F10000000000000

/-- SC-5: `00`, the marker, twelve zero bytes. -/
def bufSC5 : List Byte := [0x00, 0xFE, 0x6B, 0x28, 0x40] ++ List.replicate 12 0

/-- SC-2: the marker and eleven zero bytes: one byte short of a frame. -/
def bufSC2 : List Byte := [0xFE, 0x6B, 0x28, 0x40] ++ List.replicate 11 0

/-- The buffer of P2's kind: a frame whose payload holds markers (SC-12). -/
def bufSC12 : List Byte :=
  [0xFE, 0x6B, 0x28, 0x40, 0xFE, 0x6B, 0x28, 0x40] ++ List.replicate 8 0 ++ [0xFE, 0x6B, 0x28, 0x40] ++
    List.replicate 12 0

/-- A host operation waiting in the inbox. -/
def withOp (w : HostWord) (s : State) : State := { s with inbox := [⟨7, w⟩] }

-- WellFormed: each check refuses an ill-formed term

theorem test_wf_refuses_marker_as_nosync : (Instr.nosync 0xFE6B2840).wf = false := by decide
theorem test_wf_takes_other_window : (Instr.nosync 0xFE6B2841).wf = true := by decide
theorem test_wf_refuses_hkFrame_without_hkt : (Instr.hkFrame 0xFE6B28407FFFFFFF0ABC000100020003).wf = false := by decide
theorem test_wf_refuses_nonHkFrame_with_hkt : (Instr.nonHkFrame 0xFE6B2840800000640ABC000100020003).wf = false := by
  decide

-- Decode: one word written out per constructor, from R73, R80, R81, R82 and R92

theorem test_decode_sync : decode (.window 0xFE6B2840) = .ok .sync := rfl
theorem test_decode_nosync : decode (.window 0xFEFE6B28) = .ok (.nosync 0xFEFE6B28) := rfl
theorem test_decode_hkFrame :
    decode (.frameHk 0x00000000800000011234000000000000) = .ok (.hkFrame 0x00000000800000011234000000000000) := rfl
theorem test_decode_nonHkFrame :
    decode (.frameHk 0xFE6B28407FFFFFFF0ABC000100020003) = .ok (.nonHkFrame 0xFE6B28407FFFFFFF0ABC000100020003) := rfl
theorem test_decode_sciAnyW1 :
    decode (.frameSci 0xFE6B2840FFFFFFFFFFFFFFFFFFFFFFFF) = .ok (.sciAnyW1 0xFE6B2840FFFFFFFFFFFFFFFFFFFFFFFF) := rfl
theorem test_decode_calId0 : decode (.calSel 0b0_0000_0000 0xABC0 1) = .ok (.calId0 .unit1 0xABC0 1) := rfl
theorem test_decode_calId1 : decode (.calSel 0b1_0000_0001 0xABC0 1) = .ok (.calId1 .unit2 0xABC0 1) := rfl
theorem test_decode_calId2 : decode (.calSel 0b0_0000_0010 0xABC0 1) = .ok (.calId2 .unit1 0xABC0 1) := rfl
theorem test_decode_calId3 : decode (.calSel 0b1_0000_0011 0xABC0 1) = .ok (.calId3 .unit2 0xABC0 1) := rfl
theorem test_decode_calId4U1 : decode (.calSel 0b0_0000_0100 0xABC0 1) = .ok (.calId4U1 0xABC0 1) := rfl
theorem test_decode_calId4U2 : decode (.calSel 0b1_0000_0100 0xABC0 1) = .ok (.calId4U2 0xABC0 1) := rfl
theorem test_decode_calId5 : decode (.calSel 0b1_0000_0101 0xABC0 1) = .ok (.calId5 .unit2 0xABC0 1) := rfl
theorem test_decode_calId6U1 : decode (.calSel 0b0_0000_0110 0xABC0 1) = .ok (.calId6U1 0xABC0 1) := rfl
theorem test_decode_calId6U2 : decode (.calSel 0b1_0000_0110 0xABC0 1) = .ok (.calId6U2 0xABC0 1) := rfl
theorem test_decode_calId7 : decode (.calSel 0b1_0000_0111 0xABC0 1) = .ok (.calId7 .unit2 0xABC0 1) := rfl
theorem test_decode_calId8U1 : decode (.calSel 0b0_0000_1000 0xABC0 1) = .ok (.calId8U1 0xABC0 1) := rfl
theorem test_decode_calId8U2 : decode (.calSel 0b1_0000_1000 0xABC0 1) = .ok (.calId8U2 0xABC0 1) := rfl
theorem test_decode_calId9 : decode (.calSel 0b1_0000_1001 0xABC0 1) = .ok (.calId9 .unit2 0xABC0 1) := rfl
theorem test_decode_calId10 : decode (.calSel 0b0_0000_1010 0xABC0 1) = .ok (.calId10 .unit1 0xABC0 1) := rfl
theorem test_decode_calId11 : decode (.calSel 0b1_0000_1011 0xABC0 1) = .ok (.calId11 .unit2 0xABC0 1) := rfl
theorem test_decode_calId12 : decode (.calSel 0b0_0000_1100 0xABC0 1) = .ok (.calId12 .unit1 0xABC0 1) := rfl
theorem test_decode_calId13 : decode (.calSel 0b1_0000_1101 0xABC0 1) = .ok (.calId13 .unit2 0xABC0 1) := rfl
theorem test_decode_calId14 : decode (.calSel 0b0_0000_1110 0xABC0 1) = .ok (.calId14 .unit1 0xABC0 1) := rfl
theorem test_decode_calId15 : decode (.calSel 0b1_0000_1111 0xABC0 1) = .ok (.calId15 .unit2 0xABC0 1) := rfl
theorem test_decode_calUnknownA : decode (.calSel 0b1_1000_0101 2 1) = .ok (.calUnknownA .unit2 0b0000101 2 1) := rfl
theorem test_decode_calUnknownB : decode (.calSel 0b0_0111_1111 2 1) = .ok (.calUnknownB .unit1 0b111111 2 1) := rfl
theorem test_decode_calUnknownC : decode (.calSel 0b1_0010_0001 2 1) = .ok (.calUnknownC .unit2 0b00001 2 1) := rfl
theorem test_decode_calUnknownD : decode (.calSel 0b0_0001_0100 2 1) = .ok (.calUnknownD .unit1 0b0100 2 1) := rfl
theorem test_decode_load : decode (.hostCmd { hostWordOf 0x01 with bytes := [1, 2] }) = .ok (.load [1, 2]) := rfl
theorem test_decode_restart : decode (.hostCmd (hostWordOf 0x02)) = .ok .restart := rfl
theorem test_decode_step : decode (.hostCmd (hostWordOf 0x03)) = .ok .step := rfl
theorem test_decode_next : decode (.hostCmd (hostWordOf 0x04)) = .ok .next := rfl
theorem test_decode_decodeSci : decode (.hostCmd { hostWordOf 0x10 with frame := 5 }) = .ok (.decodeSci 5) := rfl
theorem test_decode_decodeHk : decode (.hostCmd { hostWordOf 0x11 with frame := 5 }) = .ok (.decodeHk 5) := rfl
theorem test_decode_calibrate :
    decode (.hostCmd { hostWordOf 0x20 with id := 4, raw := 0xABC0, vpc := 9, unit := .unit2 }) =
      .ok (.calibrate 4 0xABC0 9 .unit2) := rfl
theorem test_decode_reserved_05 : decode (.hostCmd (hostWordOf 0x05)) = .error (.reservedCommand 0x05) := rfl
theorem test_decode_reserved_ff : decode (.hostCmd (hostWordOf 0xFF)) = .error (.reservedCommand 0xFF) := rfl

-- Operand fields: the split of the source's frame (95_test_vectors.md section 1.1)

theorem test_fields_of_worked_frame :
    frameW0 0xFE6B2840000000051000200030004000 = 0xFE6B2840 ∧ frameW1 0xFE6B2840000000051000200030004000 = 5 ∧
    frameH0 0xFE6B2840000000051000200030004000 = 0x1000 ∧ frameH3 0xFE6B2840000000051000200030004000 = 0x4000 := by
  decide

theorem test_frame_of_bytes :
    frameOfBytes ([0xFE, 0x6B, 0x28, 0x40, 0, 0, 0, 5, 0x10, 0, 0x20, 0, 0x30, 0, 0x40, 0]) =
      0xFE6B2840000000051000200030004000 := by decide

-- Scanner (95_test_vectors.md section 2.1)

/-- SC-5, first position: a skip. -/
theorem test_step_skips : resultsOf (exec .step (loadedState bufSC5 0)) = some [.skipped 1] := by decide +kernel

/-- SC-5, second position: the frame at 1. -/
theorem test_step_emits :
    resultsOf (exec .step (loadedState bufSC5 1)) = some [.emitted 0xFE6B2840000000000000000000000000 17] := by
  decide +kernel

/-- SC-2: a marker with 15 bytes left gives END, CUR unchanged. -/
theorem test_step_stop_test_first :
    resultsOf (exec .step (loadedState bufSC2 0)) = some [.ended 0] ∧
    (stateOf (exec .step (loadedState bufSC2 0))).map State.cur = some 0 := by decide +kernel

/-- SC-5 by NEXT: one skip, one emit, each with its event. -/
theorem test_next_skips_then_emits :
    (stateOf (exec .next (loadedState bufSC5 0))).map State.hist =
      some [.skip 0, .emit 1 0xFE6B2840000000000000000000000000] := by decide +kernel

/-- SC-4: `FE6B2841` differs in the last bit; skips at 0 to 3, END at 4. -/
theorem test_next_ends_after_skips :
    resultsOf (exec .next (loadedState ([0xFE, 0x6B, 0x28, 0x41] ++ List.replicate 12 0 ++ [0xFE, 0x6B, 0x28]) 0)) =
      some [.ended 4] := by decide +kernel

/-- SC-12: after frame 0 the next frame is at 16; the marker at 4 is never examined. -/
theorem test_next_after_payload_marker :
    (stateOf (exec .next (loadedState bufSC12 16))).map State.cur = some 32 := by decide +kernel

theorem test_sync_row_emits :
    resultsOf (exec .sync (loadedState bufSC5 1)) = some [.emitted 0xFE6B2840000000000000000000000000 17] := by
  decide +kernel

theorem test_nosync_row_skips : resultsOf (exec (.nosync 0x00FE6B28) (loadedState bufSC5 0)) = some [.skipped 1] := by
  decide +kernel

/-- R101's example: RESTART after a scan gives CUR = 0. -/
theorem test_restart : (stateOf (exec .restart (loadedState bufSC5 17))).map State.cur = some 0 := by decide +kernel

/-- F-6: with ADDR_W = 4 a LOAD of 16 bytes records OPERAND_RANGE, LOADED still 0. -/
theorem test_load_too_long :
    (stateOf (exec (.load (List.replicate 16 0)) (testReset 4))).map (fun s => (s.faultMark, s.loaded)) =
      some (some .operandRange, false) := by decide +kernel

/-- F-7: with ADDR_W = 4 a LOAD of 15 bytes is taken. -/
theorem test_load_longest :
    (stateOf (exec (.load (List.replicate 15 0)) (testReset 4))).map (fun s => (s.faultMark, s.loaded, s.len)) =
      some (none, true, 15) := by decide +kernel

/-- F-1: STEP from reset records NO_BUFFER and nothing else. -/
theorem test_step_no_buffer :
    (stateOf (step (withOp (hostWordOf 0x03) State.reset))).map (fun s => (s.faultMark, s.hist, s.results)) =
      some (some .noBuffer, [], []) := by decide +kernel

/-- F-4: code 0x05 from reset records RESERVED_COMMAND. -/
theorem test_step_reserved :
    (stateOf (step (withOp (hostWordOf 0x05) State.reset))).map (fun s => (s.faultMark, s.results)) =
      some (some .reservedCommand, []) := by decide +kernel

-- Decoders (95_test_vectors.md sections 2.2 and 2.3)

/-- SCI-3: HKT and CMD are independent, counts are unsigned. -/
theorem test_decodeSci_sci3 :
    resultsOf (exec (.decodeSci 0xFE6B2840800000000000000180007FFF) (testReset 16)) =
      some [.okSci ⟨false, 0, 0, 0x3F10000000000000, 0x4000000000000000, 0x3FFFFFC000000000⟩] := by decide +kernel

/-- SCI-5: a frame that does not begin with the marker. -/
theorem test_sciAnyW1_sci5 :
    resultsOf (exec (.sciAnyW1 0x00000000C0000001ABC0000000000001) (testReset 16)) =
      some [.okSci ⟨true, 1, 0x4005780000000000, 0, 0, 0x3F10000000000000⟩] := by decide +kernel

/-- SCI-7: with VPC_SCI = fdiv(4.096, 65536.0), count 0xABC0 gives 2.748. -/
theorem test_decodeSci_rounds :
    sciChannel { testConfig 16 with fullScaleSci := 0x4010624DD2F1A9FC } 0xABC0 = 0x4005FBE76C8B4396 := by decide +kernel

/-- HK-8: the deltas are copied, the raw value shifted. -/
theorem test_decodeHk_hk8 :
    resultsOf (exec (.decodeHk 0xFE6B2840FFFFFFFF9FFFFFFF80000001) (testReset 16)) =
      some [.okHk ⟨0x3FFFFFFF, 9, 0xFFF0, 0xFFFF, 0x8000, 1⟩] := by decide +kernel

/-- HK-11: id 11 is taken unshifted. -/
theorem test_hkFrame_hk11 :
    resultsOf (exec (.hkFrame 0xFE6B2840C000012CB123000400050006) (testReset 16)) =
      some [.okHk ⟨300, 11, 0x0123, 4, 5, 6⟩] := by decide +kernel

/-- HK-2: every bit of W1 but HKT. -/
theorem test_decodeHk_hk2 :
    resultsOf (exec (.decodeHk 0xFE6B28407FFFFFFF0ABC000100020003) (testReset 16)) = some [.noSample] := by decide +kernel

theorem test_nonHkFrame :
    resultsOf (exec (.nonHkFrame 0xFE6B2840000000051000200030004000) (testReset 16)) = some [.noSample] := by
  decide +kernel

-- Calibration (95_test_vectors.md section 2.4)

theorem test_calId0 :
    resultsOf (exec (.calId0 .unit1 0xABC0 vpc14) (testReset 16)) = some [.okValue 0xC0128FFFFFFFFFFE] := by decide +kernel
theorem test_calId1 :
    resultsOf (exec (.calId1 .unit2 0x0010 vpc14) (testReset 16)) = some [.okValue 0xC0710E7000000000] := by decide +kernel
theorem test_calId2 :
    resultsOf (exec (.calId2 .unit1 0 vpc14) (testReset 16)) = some [.okValue 0xC071100000000000] := by decide +kernel
theorem test_calId3 :
    resultsOf (exec (.calId3 .unit2 0xFFF0 vpc14) (testReset 16)) = some [.okValue 0x405FB9C000000000] := by decide +kernel
theorem test_calId4U1 :
    resultsOf (exec (.calId4U1 0x0010 vpc14) (testReset 16)) = some [.okValue 0x3FABC71C71C71C72] := by decide +kernel
theorem test_calId4U2 :
    resultsOf (exec (.calId4U2 0xABC0 vpc14) (testReset 16)) = some [.okValue 0x40521D1E299DE050] := by decide +kernel
theorem test_calId5 :
    resultsOf (exec (.calId5 .unit1 0xABC0 vpc14) (testReset 16)) = some [.okValue 0x4005780000000000] := by decide +kernel
theorem test_calId6U1 :
    resultsOf (exec (.calId6U1 0xABC0 vpc14) (testReset 16)) = some [.okValue 0x40727D93F2A799F2] := by decide +kernel
theorem test_calId6U2 :
    resultsOf (exec (.calId6U2 0x0010 vpc14) (testReset 16)) = some [.okValue 0xBFF8E8E38E38E38E] := by decide +kernel
theorem test_calId7 :
    resultsOf (exec (.calId7 .unit2 0xFFF0 vpc14) (testReset 16)) = some [.okValue 0x400FFE0000000000] := by decide +kernel
theorem test_calId8U1 :
    resultsOf (exec (.calId8U1 0x0000 vpc14) (testReset 16)) = some [.okValue 0x3FDAA619AF84B582] := by decide +kernel
theorem test_calId8U2 :
    resultsOf (exec (.calId8U2 0xABC0 vpc14) (testReset 16)) = some [.okValue 0x4062C01D1C4111FB] := by decide +kernel
theorem test_calId9 :
    resultsOf (exec (.calId9 .unit1 0x0010 vpc14) (testReset 16)) = some [.okValue 0x3F50000000000000] := by decide +kernel
theorem test_calId10 :
    resultsOf (exec (.calId10 .unit2 0xFFF vpc14) (testReset 16)) = some [.okValue 0x3FCFFE0000000000] := by decide +kernel
theorem test_calId11 :
    resultsOf (exec (.calId11 .unit1 0x123 vpc14) (testReset 16)) = some [.okValue 0x4072300000000000] := by decide +kernel
theorem test_calId12 :
    resultsOf (exec (.calId12 .unit1 0xABC0 vpc14) (testReset 16)) = some [.okValue 0x40E5780000000000] := by decide +kernel
theorem test_calId13 :
    resultsOf (exec (.calId13 .unit2 0xFFF0 vpc14) (testReset 16)) = some [.okValue 0x40EFFE0000000000] := by decide +kernel
theorem test_calId14 :
    resultsOf (exec (.calId14 .unit1 0xABC0 vpc14) (testReset 16)) = some [.okValue 0x4005780000000000] := by decide +kernel
theorem test_calId15 :
    resultsOf (exec (.calId15 .unit1 0xFFFF vpc14) (testReset 16)) = some [.okValue 0x400FFFE000000000] := by decide +kernel
theorem test_calUnknownA :
    resultsOf (exec (.calUnknownA .unit1 0 0xABC0 vpc14) (testReset 16)) = some [.unknownChannel] := by decide +kernel
theorem test_calUnknownB :
    resultsOf (exec (.calUnknownB .unit1 0 0xABC0 vpc14) (testReset 16)) = some [.unknownChannel] := by decide +kernel
theorem test_calUnknownC :
    resultsOf (exec (.calUnknownC .unit1 0 0xABC0 vpc14) (testReset 16)) = some [.unknownChannel] := by decide +kernel
theorem test_calUnknownD :
    resultsOf (exec (.calUnknownD .unit1 0 0xABC0 vpc14) (testReset 16)) = some [.unknownChannel] := by decide +kernel

/-- CAL-13: a negative `vpc` and a zero count give -0.0. -/
theorem test_calibrate_negative_zero :
    resultsOf (exec (.calibrate 5 0 0xBF10000000000000 .unit1) (testReset 16)) = some [.okValue 0x8000000000000000] := by
  decide +kernel

/-- The row with a `vpc` that is no power of two: id 4 Unit2 at raw 0xABC0. -/
theorem test_calibrate_rounds_every_step :
    resultsOf (exec (.calibrate 4 0xABC0 0x3F10624DD2F1A9FC .unit2) (testReset 16)) = some [.okValue 0x4052DD3B5EE0E208] := by
  decide +kernel

/-- CAL-12: `0 × inf` is a NaN, whatever its payload (log 9). -/
theorem test_calibrate_nan : f64IsNaN (scaledValue 0 0x7FF0000000000000) = true := by
  have h : scaledValue 0 0x7FF0000000000000 = f64NaN .mul (toF64 0) 0x7FF0000000000000 := rfl
  rw [h]
  exact f64NaN_isNaN _ _ _

-- Host programs

/-- P3's HKCAL `$2`: id 11, raw 0x0123, value 291.0. -/
theorem test_hkcal :
    (match hkcal 0xFE6B2840C000012CB123000400050006 vpc14 .unit2 (testReset 16) with
      | .next r => some r.1
      | .fault _ => none
      | .refused _ => none) =
      some (.calibrated ⟨300, 11, 0x0123, 4, 5, 6⟩ (some (.okValue 0x4072300000000000))) := by decide +kernel

/-- SC-12 by SCANALL: frames at 0 and 16. -/
theorem test_scanall :
    (match scanAll (loadedState bufSC12 0) with
      | .next r => some (r.1.length, r.2.cur)
      | .fault _ => none
      | .refused _ => none) = some (2, 32) := by decide +kernel

theorem test_scanBuffer : (scanBuffer bufSC12).map Prod.fst = [0, 16] := by decide +kernel

/-- L1-2b: ENC_SCI of the vector's sample; 0.1, 1.0, 3.99995, 0.0 by their bits. -/
theorem test_encSci :
    encSci ⟨true, 300, litF64 1 1, litF64 1 0, litF64 399995 5, 0⟩ vpc14 = 0xFE6B28404000012C06664000FFFF0000 := by
  decide +kernel

/-- A line of R89 with a label, a hex-float and a comment. -/
theorem test_assemble_calibrate :
    (assembleLine (['a', ':', ' ', 'C', 'A', 'L', 'I', 'B', 'R', 'A', 'T', 'E', ' ', '4', ',', ' ', '0', 'x', 'A', 'B', 'C', '0',
      ',', ' '] ++ ['0', 'x', '1', 'p', '-', '1', '4', ',', ' ', 'U', '2', ' ', ';', ' ', '0', 'x', '2', '0'])).toOption =
      some (some ⟨some ['a'], .calibrate 4 0xABC0 vpc14 .unit2⟩) := by decide +kernel

theorem test_assemble_refuses : (assembleLine ['H', 'A', 'L', 'T']).toOption = none := by decide +kernel

-- Witnesses: for every statement with hypotheses, a state and operands that meet them, each clause apart

/-- A loaded test buffer keeps the invariant. -/
theorem bufInv_loadedState (b : List Byte) (cur : Nat) (hb : b.length ≤ 65535) (hc : cur ≤ b.length) :
    BufInv (loadedState b cur) where
  canonical := memoryOf_wf b 0
  bytes := fun _ off => by simp [loadedState, readByte_memoryOf_zero]
  curLe := fun _ => hc
  lenFits := by
    have h16 : (loadedState b cur).cfg.addrW = 16 := rfl
    rw [h16]; exact hb
  idle := fun h => by cases h

/-- The bytes of a loaded test buffer are those loaded. -/
theorem readBytes_loadedState (b : List Byte) (cur : Nat) : readBytes (loadedState b cur).buf 0 b.length = some b :=
  (readBytes_eq_some_iff _ _ _ _).2 ⟨rfl, fun k _ => by simp [loadedState, readByte_memoryOf_zero]⟩

/-- A state in which BUF has a hole below LEN; no run reaches it. -/
def holeState : State := { loadedState bufSC5 0 with buf := [] }

/-- SC-5's frame. -/
def frameSC5 : RawFrame := 0xFE6B2840000000000000000000000000

/-- A history with two frames in one scan, of a buffer of 40 bytes. -/
def histState : State :=
  { loadedState (List.replicate 40 0) 33 with
    hist := [.load 40, .emit 0 frameSC5, .skip 16, .emit 17 frameSC5] }

/-- Two lane operations and a scanner operation, none taken yet. -/
def laneInbox : List HostRequest :=
  [⟨1, { hostWordOf 0x10 with frame := 5 }⟩, ⟨2, { hostWordOf 0x11 with frame := 6 }⟩, ⟨3, hostWordOf 0x04⟩]

theorem witness_decodeOfEncode : (Instr.nosync 0xFE6B2841).wf = true := by decide

theorem witness_encodeOfDecode :
    decode (.window 0xFE6B2841) = .ok (.nosync 0xFE6B2841) ∧ ∀ w, Encoded.window 0xFE6B2841 ≠ .hostCmd w :=
  ⟨rfl, fun w h => by cases h⟩

/-- Host commands that read each kind of operand, with other ports in use (log 24). -/
theorem witness_encodeOfDecode_host :
    decode (.hostCmd { hostWordOf 0x01 with bytes := [1, 2], frame := 5 }) = .ok (.load [1, 2]) ∧
    decode (.hostCmd { hostWordOf 0x10 with frame := 5, raw := 7 }) = .ok (.decodeSci 5) ∧
    decode (.hostCmd { hostWordOf 0x11 with frame := 5 }) = .ok (.decodeHk 5) ∧
    decode (.hostCmd { hostWordOf 0x20 with id := 4, raw := 7, vpc := 9, unit := .unit2 }) = .ok (.calibrate 4 7 9 .unit2) :=
  ⟨rfl, rfl, rfl, rfl⟩

theorem witness_namedCode : (hostWordOf 0x20).op ∈ ([0x01, 0x02, 0x03, 0x04, 0x10, 0x11, 0x20] : List Byte) := by decide

theorem witness_reservedCode :
    fetch (withOp (hostWordOf 0x05) (testReset 16)) = some (⟨7, hostWordOf 0x05⟩, { testReset 16 with active := 7 }) ∧
    (hostWordOf 0x05).op ∉ ([0x01, 0x02, 0x03, 0x04, 0x10, 0x11, 0x20] : List Byte) ∧
    (testReset 16).faultMark = none := by decide +kernel

theorem witness_frameBytes : (frameBytes frameSC5).length = 16 := by decide

theorem witness_stepRunsTheDecodedOperation :
    (withOp (hostWordOf 0x03) (testReset 16)).inbox = ⟨7, hostWordOf 0x03⟩ :: [] ∧
    (withOp (hostWordOf 0x03) (testReset 16)).laneOrder = [] ∧ decodeHostWord (hostWordOf 0x03) = .ok .step :=
  ⟨rfl, rfl, rfl⟩

theorem witness_stepIdles : State.reset.inbox = [] := rfl

theorem witness_laneOperationPasses :
    (fetch { testReset 16 with inbox := laneInbox, laneOrder := [1] }).map (fun x => x.1.tag) = some 2 ∧
    (fetch { testReset 16 with inbox := laneInbox, laneOrder := [2] }).map (fun x => x.1.tag) = some 1 := by decide +kernel

theorem witness_laneOrder : ∀ r ∈ laneInbox.take 2, isLaneOp r = true := by decide

theorem witness_presentedWord : decodeTableWord 8 0x04 = some .next := rfl

theorem witness_presentedWord_window : decodeTableWord 32 0xFE6B2840 = some .sync := rfl

theorem witness_stepRunsTheWindowRow :
    (loadedState bufSC5 1).loaded = true ∧ (loadedState bufSC5 1).cur + 16 ≤ (loadedState bufSC5 1).len ∧
    readBytes (loadedState bufSC5 1).buf 1 4 = some markerBytes := by decide +kernel

theorem witness_loadFits : (List.replicate 15 (0 : Byte)).length ≤ 2 ^ (testReset 4).cfg.addrW - 1 := by decide

theorem witness_loadTooLong :
    2 ^ (testReset 4).cfg.addrW - 1 < (List.replicate 16 (0 : Byte)).length ∧ (testReset 4).faultMark = none := by decide

theorem witness_restart : (loadedState bufSC5 17).loaded = true ∧ (testReset 16).loaded = false := by decide

theorem witness_step_noBuffer : (testReset 16).loaded = false ∧ (testReset 16).faultMark = none := by decide

/-- SC-2: one byte short of a frame. -/
theorem witness_step_ends :
    (loadedState bufSC2 0).loaded = true ∧ (loadedState bufSC2 0).len < (loadedState bufSC2 0).cur + 16 := by decide

/-- SC-5: exactly 16 bytes are left. -/
theorem witness_step_emits :
    (loadedState bufSC5 1).loaded = true ∧ (loadedState bufSC5 1).cur + 16 ≤ (loadedState bufSC5 1).len ∧
    readBytes (loadedState bufSC5 1).buf 1 16 = some (frameBytes frameSC5) ∧
    (frameBytes frameSC5).take 4 = markerBytes := by decide +kernel

theorem witness_step_skips :
    (loadedState bufSC5 0).loaded = true ∧ (loadedState bufSC5 0).cur + 16 ≤ (loadedState bufSC5 0).len ∧
    readBytes (loadedState bufSC5 0).buf 0 4 = some [0x00, 0xFE, 0x6B, 0x28] ∧
    ([0x00, 0xFE, 0x6B, 0x28] : List Byte) ≠ markerBytes := by decide +kernel

theorem witness_windowRow_atEnd :
    (testReset 16).loaded = false ∨ (loadedState bufSC2 0).len < (loadedState bufSC2 0).cur + 16 := by decide

theorem witness_next_emits :
    (loadedState bufSC5 0).loaded = true ∧ (loadedState bufSC5 0).cur ≤ 1 ∧ 1 + 16 ≤ (loadedState bufSC5 0).len ∧
    (∀ p, (loadedState bufSC5 0).cur ≤ p → p < 1 →
      ∃ w, readBytes (loadedState bufSC5 0).buf p 4 = some w ∧ w ≠ markerBytes) ∧
    readBytes (loadedState bufSC5 0).buf 1 16 = some (frameBytes frameSC5) ∧
    (frameBytes frameSC5).take 4 = markerBytes := by
  refine ⟨by decide, by decide, by decide, fun p _ h => ?_, by decide +kernel, by decide +kernel⟩
  obtain rfl : p = 0 := by omega
  exact ⟨[0x00, 0xFE, 0x6B, 0x28], by decide +kernel, by decide⟩

/-- Sixteen zero bytes: one position is left, and it is no marker. -/
theorem witness_next_ends :
    (loadedState (List.replicate 16 0) 0).loaded = true ∧
    (∀ p, (loadedState (List.replicate 16 0) 0).cur ≤ p → p + 16 ≤ (loadedState (List.replicate 16 0) 0).len →
      ∃ w, readBytes (loadedState (List.replicate 16 0) 0).buf p 4 = some w ∧ w ≠ markerBytes) := by
  refine ⟨by decide, fun p _ h => ?_⟩
  have h16 : (loadedState (List.replicate 16 0) 0).len = 16 := by decide
  obtain rfl : p = 0 := by omega
  exact ⟨[0, 0, 0, 0], by decide +kernel, by decide⟩

theorem witness_nextBound :
    (loadedState bufSC5 0).loaded = true ∧ (stateOf (exec .next (loadedState bufSC5 0))).isSome = true ∧
    (loadedState bufSC5 0).cur + 16 ≤ (loadedState bufSC5 0).len := by decide +kernel

theorem witness_nextBound_atEnd :
    (loadedState bufSC2 0).loaded = true ∧ (stateOf (exec .next (loadedState bufSC2 0))).isSome = true ∧
    (loadedState bufSC2 0).len < (loadedState bufSC2 0).cur + 16 := by decide +kernel

theorem witness_done :
    doneFlag (loadedState bufSC2 0) = true ∧ doneFlag (loadedState bufSC5 1) = false ∧ doneFlag (testReset 16) = false ∧
    resultsOf (exec .step (loadedState bufSC2 0)) = some [.ended 0] := by decide +kernel

/-- An instruction other than LOAD and RESTART that answers a next state (CursorNeverMovesBack, OnlyLoadChangesTheBuffer,
ConfigurationAndInboxStay). -/
theorem witness_notLoadNotRestart :
    (stateOf (exec .step (loadedState bufSC5 0))).isSome = true ∧ (∀ b, Instr.step ≠ .load b) ∧ Instr.step ≠ .restart :=
  ⟨by decide +kernel, fun _ h => (by cases h), by decide⟩

/-- A state that keeps the invariant, and a step of it that moves the cursor. -/
theorem witness_stepKeepsTheBufferInvariant :
    BufInv (withOp (hostWordOf 0x04) (loadedState bufSC5 0)) ∧
    (stateOf (step (withOp (hostWordOf 0x04) (loadedState bufSC5 0)))).map State.cur = some 17 :=
  ⟨let h := bufInv_loadedState bufSC5 0 (by decide) (by decide)
   ⟨h.canonical, h.bytes, h.curLe, h.lenFits, h.idle⟩, by decide +kernel⟩

theorem witness_stepKeepsTheHistoryTrue :
    HistExplains (withOp (hostWordOf 0x02) histState) ∧
    (stateOf (step (withOp (hostWordOf 0x02) histState))).map State.cur = some 0 := by
  unfold HistExplains; decide +kernel

theorem witness_emittedFramesNeverOverlap :
    HistExplains histState ∧
    histState.hist = [.load 40] ++ [.emit 0 frameSC5] ++ [.skip 16] ++ [.emit 17 frameSC5] ++ [] ∧
    (∀ e ∈ [Event.skip 16], startsScan e = false) ∧ ∀ e ∈ ([] : List Event), ∀ n, e ≠ .load n :=
  ⟨by unfold HistExplains; decide +kernel, by decide, by decide, by simp⟩

theorem witness_emittedFrame :
    (stateOf (step (withOp (hostWordOf 0x04) (loadedState bufSC5 0)))).map State.results =
      some [⟨7, .emitted frameSC5 17⟩] := by decide +kernel

theorem witness_restartScanall :
    BufInv (loadedState bufSC12 32) ∧ (loadedState bufSC12 32).loaded = true ∧
    readBytes (loadedState bufSC12 32).buf 0 (loadedState bufSC12 32).len = some bufSC12 :=
  ⟨bufInv_loadedState bufSC12 32 (by decide) (by decide), rfl, readBytes_loadedState bufSC12 32⟩

/-- SC-12 and the same buffer with the marker in frame 0's payload changed. -/
theorem witness_payloadBytes :
    ((bufSC12.set 4 0x00).length = bufSC12.length ∧ bufSC12.set 4 0x00 ≠ bufSC12) ∧
    ∀ k, (∀ p f, (p, f) ∈ scanBuffer bufSC12 → ¬(p + 4 ≤ k ∧ k < p + 16)) → (bufSC12.set 4 0x00)[k]? = bufSC12[k]? := by
  refine ⟨by decide, fun k hk => ?_⟩
  have h0 : ∃ f, (0, f) ∈ scanBuffer bufSC12 := by
    have : 0 ∈ (scanBuffer bufSC12).map Prod.fst := by rw [test_scanBuffer]; decide
    obtain ⟨⟨p, f⟩, hm, rfl⟩ := List.mem_map.1 this
    exact ⟨f, hm⟩
  obtain ⟨f, hf⟩ := h0
  have hne : k ≠ 4 := fun h => hk 0 f hf (by omega)
  simp [Ne.symm hne]

theorem witness_faultMarkStays :
    { withOp (hostWordOf 0x01) (testReset 16) with faultMark := some .noBuffer }.faultMark = some FaultReason.noBuffer ∧
    (stateOf (step { withOp (hostWordOf 0x01) (testReset 16) with faultMark := some .noBuffer })).isSome = true := by
  decide +kernel

/-- The one stop, in a state no run reaches: an offset below LEN where BUF holds no byte. -/
theorem witness_bufferHole : exec .step holeState = .fault (.bufferHole 0) := rfl

theorem witness_everyInstructionAnswers : BufInv (loadedState bufSC5 0) := bufInv_loadedState _ _ (by decide) (by decide)

theorem witness_statuses :
    (stateOf (exec (.decodeHk 0) (testReset 16))).map State.results = some [⟨(testReset 16).active, .noSample⟩] := by
  decide +kernel

theorem witness_laneInstruction :
    readsOf (.decodeHk 0) = .nothing ∧ readsOf (.calId12 .unit1 0 0) = .nothing ∧ readsOf (.decodeSci 0) = .vpcSci ∧
    readsOf (.calId4U2 0 0) = .kcal := by decide

/-- Every statement under the evaluation D7: the configuration of reset has it (R141, log 8). -/
theorem witness_d7 : State.reset.cfg.fpEval = .d7 := rfl

theorem witness_decodeHk_kinds :
    (frameW1 0xFE6B2840FFFFFFFF9FFFFFFF80000001).getLsbD 31 = true ∧
    (frameW1 0xFE6B28407FFFFFFF0ABC000100020003).getLsbD 31 = false := by decide

/-- Two frames that differ in `W0` and `W1[31]` alone. -/
theorem witness_ignoredBySci :
    frameH0 0xFE6B2840C0000001ABC0000000000001 = frameH0 0x0000000040000001ABC0000000000001 ∧
    frameH1 0xFE6B2840C0000001ABC0000000000001 = frameH1 0x0000000040000001ABC0000000000001 ∧
    frameH2 0xFE6B2840C0000001ABC0000000000001 = frameH2 0x0000000040000001ABC0000000000001 ∧
    frameH3 0xFE6B2840C0000001ABC0000000000001 = frameH3 0x0000000040000001ABC0000000000001 ∧
    (frameW1 0xFE6B2840C0000001ABC0000000000001).extractLsb' 0 31 =
      (frameW1 0x0000000040000001ABC0000000000001).extractLsb' 0 31 := by decide

/-- Two frames that differ in `W0` and `W1[30]` alone. -/
theorem witness_ignoredByHk :
    frameH0 0xFE6B2840C0000001ABC0000000000001 = frameH0 0x0000000080000001ABC0000000000001 ∧
    frameH1 0xFE6B2840C0000001ABC0000000000001 = frameH1 0x0000000080000001ABC0000000000001 ∧
    frameH2 0xFE6B2840C0000001ABC0000000000001 = frameH2 0x0000000080000001ABC0000000000001 ∧
    frameH3 0xFE6B2840C0000001ABC0000000000001 = frameH3 0x0000000080000001ABC0000000000001 ∧
    (frameW1 0xFE6B2840C0000001ABC0000000000001).getLsbD 31 = (frameW1 0x0000000080000001ABC0000000000001).getLsbD 31 ∧
    (frameW1 0xFE6B2840C0000001ABC0000000000001).extractLsb' 0 30 =
      (frameW1 0x0000000080000001ABC0000000000001).extractLsb' 0 30 := by decide

theorem witness_decodedId :
    (stateOf (exec (.decodeHk 0xFE6B2840C000012CB123000400050006) (testReset 16))).map State.results =
      some [⟨(testReset 16).active, .okHk ⟨300, 11, 0x0123, 4, 5, 6⟩⟩] := by decide +kernel

theorem witness_workedFrame : (testReset 16).cfg.fpEval = .d7 ∧ (testReset 16).cfg.fullScaleSci = 0x4010000000000000 :=
  ⟨rfl, rfl⟩

/-- L1-2b's sample with its third channel lowered from 3.99995 to 3.99993 volts, which `65535 vpc` covers; `vpc = 2^-14`. -/
theorem witness_encodedSample :
    (testReset 16).cfg.fpEval = .d7 ∧ vpcSci (testReset 16).cfg = vpc14 ∧ f64IsFinite vpc14 = true ∧ 0 < f64Int vpc14 ∧
    f64IsFinite (fmul (toF64 65535) vpc14) = true ∧ (300 : U32).toNat < 2 ^ 30 ∧
    ∀ c ∈ [litF64 1 1, litF64 1 0, litF64 399993 5, (0 : F64)],
      f64IsFinite c = true ∧ 0 ≤ f64Int c ∧ f64Int c ≤ 65535 * f64Int vpc14 := by
  refine ⟨rfl, by decide +kernel, by decide +kernel, by decide +kernel, by decide +kernel, by decide, fun c hc => ?_⟩
  simp only [List.mem_cons, List.not_mem_nil, or_false] at hc
  rcases hc with h | h | h | h <;> rw [h] <;> exact ⟨by decide +kernel, by decide +kernel, by decide +kernel⟩

theorem witness_unknownId : 16 ≤ (0x10 : Byte).toNat ∧ 16 ≤ (0xFF : Byte).toNat := by decide

theorem witness_unitIgnored : (5 : Byte) ≠ 4 ∧ (5 : Byte) ≠ 6 := by decide

theorem witness_idFour_belowOverflow :
    State.reset.cfg.fpEval = .d7 ∧ State.reset.cfg.kcal = kcalSource ∧ f64IsFinite vpc14 = true ∧ 0 ≤ f64Int vpc14 ∧
    f64Units vpc14 < 2 ^ 1900 := by
  refine ⟨by rfl, by rfl, by decide +kernel, by decide +kernel, by decide +kernel⟩

theorem witness_idFour_everyVpc : f64IsNaN vpc14 = false ∧ f64Sign vpc14 = false := by decide +kernel

theorem witness_finiteOperands :
    f64IsFinite vpc14 = true ∧ f64IsFinite (litF64 1 1) = true ∧ f64Int (litF64 1 1) ≠ 0 := by decide +kernel

theorem witness_hkcal :
    frameHkt 0xFE6B2840C000012CB123000400050006 = true ∧ frameHkt 0xFE6B28407FFFFFFF0ABC000100020003 = false := by decide

end Sys2Proof.Tests
end

section
/-! SUPPORT. Rounding of binary64: `roundRat` is correctly rounded, and so are the four operations of finite operands
(00_scope.md R11, decision D7). The idea: `roundRat` rounds to a multiple of `2 ^ e` units; every binary64 value is such a
multiple or lies below `2 ^ (e + 52)` units, where the value it rounds does not. -/

namespace Sys2Proof.Machine

-- The nearest multiple

/-- No whole multiple of the divisor is nearer than the rounded one, and of two equally near it is the even one. -/
theorem divHalfEven_nearest (n d : Nat) (hd : 0 < d) (k : Int) :
    ((divHalfEven n d : Int) * d - n).natAbs ≤ (k * d - n).natAbs ∧
    (k ≠ divHalfEven n d → ((divHalfEven n d : Int) * d - n).natAbs = (k * d - n).natAbs →
      divHalfEven n d % 2 = 0) := by
  obtain ⟨hlo, hhi⟩ := divHalfEven_near n d hd
  have heven := divHalfEven_even n d hd
  generalize divHalfEven n d = m at *
  have hmd : ((m * d : Nat) : Int) = (m : Int) * d := Int.natCast_mul m d
  have hfar : k = m ∨ k * d + d ≤ m * d ∨ (m : Int) * d + d ≤ k * d := by
    have hstep {i j : Int} (h : i < j) : i * d + d ≤ j * d := by
      have hmul := Int.mul_le_mul_of_nonneg_right (Int.add_one_le_of_lt h) (Int.natCast_nonneg d)
      rwa [Int.add_mul, Int.one_mul] at hmul
    rcases Int.lt_trichotomy k m with h | h | h
    · exact .inr (.inl (hstep h))
    · exact .inl h
    · exact .inr (.inr (hstep h))
  rcases hfar with rfl | h | h
  · exact ⟨Nat.le_refl _, fun hne => absurd rfl hne⟩
  · exact ⟨by omega, fun _ htie => heven (by omega)⟩
  · exact ⟨by omega, fun _ htie => heven (by omega)⟩

-- The exponent step

/-- `e` is the exponent step of the quotient `N / d`: it lies below `2 ^ (e + 53)`, and from `2 ^ (e + 52)` on unless the
step is the least one. -/
def IsStep (N d e : Nat) : Prop := (e = 0 ∨ 2 ^ 52 * (d * 2 ^ e) ≤ N) ∧ N < 2 ^ 53 * (d * 2 ^ e)

/-- The step `roundRat` chooses. -/
theorem isStep_log2 (N d : Nat) (hd : 0 < d) : IsStep N d (Nat.log2 (N / d) - 52) := by
  have hreorder (c x : Nat) : c * (d * x) = c * x * d := by rw [Nat.mul_assoc, Nat.mul_comm d]
  unfold IsStep
  rw [hreorder, hreorder, ← Nat.le_div_iff_mul_le hd, ← Nat.div_lt_iff_lt_mul hd, ← Nat.pow_add, ← Nat.pow_add]
  generalize N / d = q
  refine ⟨Decidable.or_iff_not_imp_left.2 fun he => ?_, ?_⟩
  · rw [show 52 + (q.log2 - 52) = q.log2 by omega]
    refine Nat.log2_self_le fun h0 => he ?_
    rw [h0]
    decide
  · exact Nat.lt_of_lt_of_le Nat.lt_log2_self (Nat.pow_le_pow_right (by decide) (by omega))

/-- The significand of a step: at most `2 ^ 53`, and from `2 ^ 52` on unless the step is the least one. -/
theorem IsStep.significand {N d e : Nat} (h : IsStep N d e) (hd : 0 < d) :
    divHalfEven N (d * 2 ^ e) ≤ 2 ^ 53 ∧ (e = 0 ∨ 2 ^ 52 ≤ divHalfEven N (d * 2 ^ e)) := by
  obtain ⟨hge, hlt⟩ := h
  have hD : 0 < d * 2 ^ e := Nat.mul_pos hd (Nat.two_pow_pos e)
  obtain ⟨hlo, hhi⟩ := divHalfEven_near N (d * 2 ^ e) hD
  generalize d * 2 ^ e = D at *
  generalize divHalfEven N D = m at *
  constructor
  · refine Nat.le_of_not_lt fun hm => ?_
    have hmD : (2 ^ 53 + 1) * D ≤ m * D := Nat.mul_le_mul_right D hm
    omega
  · refine hge.imp_right fun hge => Nat.le_of_not_lt fun hm => ?_
    have hmD : m * D ≤ (2 ^ 52 - 1) * D := Nat.mul_le_mul_right D (by omega)
    omega

/-- The significand of a step gives the nearest among the multiples of `2 ^ e` and the values below the step's range. -/
theorem IsStep.nearest {N d e : Nat} (h : IsStep N d e) (hd : 0 < d) (y : Int)
    (hy : (2 ^ e : Int) ∣ y ∨ y < 2 ^ 52 * 2 ^ e) :
    ((divHalfEven N (d * 2 ^ e) : Int) * 2 ^ e * d - N).natAbs ≤ (y * d - N).natAbs ∧
    (y ≠ divHalfEven N (d * 2 ^ e) * 2 ^ e →
      ((divHalfEven N (d * 2 ^ e) : Int) * 2 ^ e * d - N).natAbs = (y * d - N).natAbs →
      divHalfEven N (d * 2 ^ e) % 2 = 0) := by
  have hnear := divHalfEven_nearest N (d * 2 ^ e) (Nat.mul_pos hd (Nat.two_pow_pos e))
  generalize divHalfEven N (d * 2 ^ e) = m at *
  have hreorder (k : Int) : k * ((d * 2 ^ e : Nat) : Int) = k * 2 ^ e * d := by
    push_cast
    rw [Int.mul_comm (d : Int), Int.mul_assoc]
  simp only [hreorder] at hnear
  by_cases hmul : (2 ^ e : Int) ∣ y
  · obtain ⟨k, rfl⟩ := hmul
    rw [Int.mul_comm (2 ^ e) k]
    exact ⟨(hnear k).1, fun hne => (hnear k).2 fun hk => hne (by rw [hk])⟩
  · have hylt := hy.resolve_left hmul
    have hN : (2 ^ 52 : Int) * 2 ^ e * d ≤ N := by
      have he : e ≠ 0 := by
        rintro rfl
        exact hmul (Int.one_dvd y)
      rw [← hreorder]
      exact_mod_cast h.1.resolve_left he
    have hyd : y * d < 2 ^ 52 * 2 ^ e * d := Int.mul_lt_mul_of_pos_right hylt (by omega)
    have hbase := (hnear (2 ^ 52)).1
    exact ⟨by omega, fun _ htie => by omega⟩

-- Signs

/-- `z` with the sign `s` put on it, as `f64Int` does. -/
def withSign (s : Bool) (z : Int) : Int := if s then -z else z

theorem f64Int_eq (a : F64) : f64Int a = withSign (f64Sign a) (f64Units a) := rfl

@[simp] theorem withSign_withSign (s : Bool) (z : Int) : withSign s (withSign s z) = z := by
  cases s with
  | false => rfl
  | true => exact Int.neg_neg z

@[simp] theorem natAbs_withSign (s : Bool) (z : Int) : (withSign s z).natAbs = z.natAbs := by
  cases s with
  | false => rfl
  | true => exact Int.natAbs_neg z

theorem withSign_mul (s : Bool) (y z : Int) : withSign s (y * z) = withSign s y * z := by
  cases s with
  | false => rfl
  | true => exact (Int.neg_mul y z).symm

theorem withSign_bne (s t : Bool) (y z : Int) : withSign (s != t) (y * z) = withSign s y * withSign t z := by
  cases s <;> cases t
  · rfl
  · exact (Int.mul_neg y z).symm
  · exact (Int.neg_mul y z).symm
  · exact (Int.neg_mul_neg y z).symm

theorem withSign_decide_natAbs (z : Int) : withSign (decide (z < 0)) z.natAbs = z := by
  by_cases h : z < 0
  · rw [decide_eq_true h, withSign, if_pos rfl]
    omega
  · rw [decide_eq_false h, withSign, if_neg Bool.false_ne_true]
    omega

theorem withSign_neg_iff (s : Bool) {z : Int} (h : 0 < z) : withSign s z < 0 ↔ s = true := by
  unfold withSign
  split
  · next hs => exact iff_of_true (by omega) hs
  · next hs => exact iff_of_false (by omega) hs

/-- A distance is the same from the other side of zero. -/
theorem natAbs_withSign_sub (s : Bool) (y z : Int) : (withSign s y - z).natAbs = (y - withSign s z).natAbs := by
  unfold withSign
  split <;> omega

theorem withSign_shiftLeft (s : Bool) (n t : Nat) : withSign s (n <<< t : Nat) = withSign s n * 2 ^ t := by
  rw [Nat.shiftLeft_eq, Int.natCast_mul, withSign_mul]
  push_cast
  rfl

-- Values and their encodings

theorem f64IsNaN_of_finite {a : F64} (h : f64IsFinite a = true) : f64IsNaN a = false := by
  have hexp : f64Exp a ≠ 2047 := bne_iff_ne.1 h
  rw [f64IsNaN, beq_false_of_ne hexp, Bool.false_and]

theorem f64IsInf_of_finite {a : F64} (h : f64IsFinite a = true) : f64IsInf a = false := by
  have hexp : f64Exp a ≠ 2047 := bne_iff_ne.1 h
  rw [f64IsInf, beq_false_of_ne hexp, Bool.false_and]

theorem natAbs_f64Int (a : F64) : (f64Int a).natAbs = f64Units a := by
  rw [f64Int_eq, natAbs_withSign, Int.natAbs_natCast]

theorem f64Units_eq_zero_iff (a : F64) : f64Units a = 0 ↔ f64IsZero a = true := by
  rw [f64IsZero, Bool.and_eq_true, beq_iff_eq, beq_iff_eq, f64Units]
  split
  · next hexp => exact (and_iff_right hexp).symm
  · next hexp =>
    have hpos : 0 < (2 ^ 52 + f64Frac a) <<< (f64Exp a - 1) := by
      rw [Nat.shiftLeft_eq]
      exact Nat.mul_pos (by omega) (Nat.two_pow_pos _)
    exact iff_of_false (Nat.ne_of_gt hpos) fun h => hexp h.1

/-- A finite value is a multiple of `2 ^ e` units or lies below `2 ^ (e + 52)` of them. -/
theorem f64Units_dvd_or_lt (a : F64) (e : Nat) : 2 ^ e ∣ f64Units a ∨ f64Units a < 2 ^ 52 * 2 ^ e := by
  have hfrac := f64Frac_lt a
  have hpow := Nat.two_pow_pos e
  unfold f64Units
  split
  · exact .inr (Nat.lt_of_lt_of_le hfrac (Nat.le_mul_of_pos_right _ hpow))
  · rw [Nat.shiftLeft_eq]
    rcases Nat.lt_or_ge (f64Exp a - 1) e with h | h
    · have hle : 2 ^ (f64Exp a - 1 + 1) ≤ 2 ^ e := Nat.pow_le_pow_right (by decide) h
      have hlt : (2 ^ 52 + f64Frac a) * 2 ^ (f64Exp a - 1) < 2 ^ 53 * 2 ^ (f64Exp a - 1) :=
        Nat.mul_lt_mul_of_pos_right (by omega) (Nat.two_pow_pos _)
      rw [Nat.pow_succ] at hle
      exact .inr (by omega)
    · exact .inl (Nat.dvd_mul_left_of_dvd (Nat.pow_dvd_pow 2 h) _)

/-- The same of the signed value, with either sign. -/
theorem f64Int_dvd_or_lt (a : F64) (e : Nat) (s : Bool) :
    (2 ^ e : Int) ∣ withSign s (f64Int a) ∨ withSign s (f64Int a) < 2 ^ 52 * 2 ^ e := by
  have habs : (withSign s (f64Int a)).natAbs = f64Units a := by rw [natAbs_withSign, natAbs_f64Int]
  refine (f64Units_dvd_or_lt a e).imp (fun h => ?_) fun h => ?_
  · rw [← Int.dvd_natAbs, habs]
    exact_mod_cast h
  · have hlt : (f64Units a : Int) < 2 ^ 52 * 2 ^ e := by exact_mod_cast h
    omega

theorem f64IsFinite_pack (s : Bool) {low : Nat} (h : low < 2047 * 2 ^ 52) : f64IsFinite (f64Pack s low) = true := by
  have hne : low / 2 ^ 52 ≠ 2047 := by omega
  rw [f64IsFinite, f64Exp_pack s low (by omega)]
  exact bne_iff_ne.2 hne

theorem f64Units_pack (s : Bool) {low : Nat} (h : low < 2 ^ 63) :
    f64Units (f64Pack s low) =
      if low / 2 ^ 52 = 0 then low % 2 ^ 52 else (2 ^ 52 + low % 2 ^ 52) * 2 ^ (low / 2 ^ 52 - 1) := by
  rw [f64Units, f64Exp_pack s low h, f64Frac_pack, Nat.shiftLeft_eq]

/-- The exponent step and the significand add up to the encoding of their product, a carry included. -/
theorem f64Units_pack_step (s : Bool) {e m : Nat} (hlow : e * 2 ^ 52 + m < 2 ^ 63) (hle : m ≤ 2 ^ 53)
    (hge : e = 0 ∨ 2 ^ 52 ≤ m) : f64Units (f64Pack s (e * 2 ^ 52 + m)) = m * 2 ^ e := by
  rw [f64Units_pack s hlow]
  rcases Nat.lt_or_ge m (2 ^ 52) with hsub | hnorm
  · obtain rfl : e = 0 := by omega
    rw [if_pos (by omega)]
    omega
  · rcases Nat.lt_or_ge m (2 ^ 53) with hm | hm
    · rw [if_neg (by omega), show (e * 2 ^ 52 + m) / 2 ^ 52 - 1 = e by omega,
        show 2 ^ 52 + (e * 2 ^ 52 + m) % 2 ^ 52 = m by omega]
    · obtain rfl : m = 2 ^ 53 := by omega
      rw [if_neg (by omega), show (e * 2 ^ 52 + 2 ^ 53) / 2 ^ 52 - 1 = e + 1 by omega,
        show 2 ^ 52 + (e * 2 ^ 52 + 2 ^ 53) % 2 ^ 52 = 2 ^ 52 by omega, Nat.pow_succ]
      omega

@[simp] theorem f64Sign_neg (a : F64) : f64Sign (f64Neg a) = !f64Sign a := f64Sign_pack _ _

@[simp] theorem f64Exp_neg (a : F64) : f64Exp (f64Neg a) = f64Exp a := by
  rw [f64Neg, f64Exp_pack _ _ (Nat.mod_lt _ (by decide)), f64Exp]
  omega

@[simp] theorem f64Frac_neg (a : F64) : f64Frac (f64Neg a) = f64Frac a := by
  rw [f64Neg, f64Frac_pack, f64Frac]
  omega

@[simp] theorem f64IsFinite_neg (a : F64) : f64IsFinite (f64Neg a) = f64IsFinite a := by
  rw [f64IsFinite, f64IsFinite, f64Exp_neg]

@[simp] theorem f64Units_neg (a : F64) : f64Units (f64Neg a) = f64Units a := by
  rw [f64Units, f64Units, f64Exp_neg, f64Frac_neg]

@[simp] theorem f64Int_neg (a : F64) : f64Int (f64Neg a) = -f64Int a := by
  rw [f64Int_eq, f64Int_eq, f64Units_neg, f64Sign_neg]
  cases f64Sign a with
  | false => rfl
  | true => exact (Int.neg_neg _).symm

theorem f64IsInf_inf (s : Bool) : f64IsInf (f64Inf s) = true := by cases s <;> decide

@[simp] theorem f64Sign_inf (s : Bool) : f64Sign (f64Inf s) = s := f64Sign_pack s _

-- Rounding

/-- The encoding `roundRat` packs of the quotient `N / d` at step `e`, the sign left out. -/
def encodingAt (N d e : Nat) : Nat := e * 2 ^ 52 + divHalfEven N (d * 2 ^ e)

theorem roundRat_eq (s : Bool) (n d : Nat) {N e : Nat} (hN : n <<< 1074 = N) (he : Nat.log2 (N / d) - 52 = e) :
    roundRat s n d = if encodingAt N d e < 2047 * 2 ^ 52 then f64Pack s (encodingAt N d e) else f64Inf s := by
  subst he
  rw [roundRat, hN, encodingAt, ← Nat.shiftLeft_eq, ← Nat.shiftLeft_eq, ← Nat.shiftLeft_eq]

/-- The encoding's exponent stays at `p + 2` or less exactly when the value stays below the midpoint past the largest value
of that exponent: `2 ^ 53 - 1 / 2` steps of `2 ^ (p + 1)`. -/
theorem IsStep.encoding_lt_iff {N d e : Nat} (h : IsStep N d e) (hd : 0 < d) (p : Nat) :
    encodingAt N d e < (p + 3) * 2 ^ 52 ↔ N < (2 ^ 54 - 1) * (d * 2 ^ p) := by
  unfold encodingAt
  obtain ⟨hmle, hmge⟩ := h.significand hd
  obtain ⟨hge, hlt⟩ := h
  have hD : 0 < d * 2 ^ e := Nat.mul_pos hd (Nat.two_pow_pos e)
  rcases Nat.lt_trichotomy e (p + 1) with he | rfl | he
  · have hpow : d * 2 ^ e ≤ d * 2 ^ p := Nat.mul_le_mul_left d (Nat.pow_le_pow_right (by decide) (by omega))
    exact iff_of_true (by omega) (by omega)
  · obtain ⟨hlo, hhi⟩ := divHalfEven_near N (d * 2 ^ (p + 1)) hD
    have heven := divHalfEven_even N (d * 2 ^ (p + 1)) hD
    have hpow : d * 2 ^ (p + 1) = 2 * (d * 2 ^ p) := by rw [Nat.pow_succ', Nat.mul_left_comm]
    generalize divHalfEven N (d * 2 ^ (p + 1)) = m at *
    generalize d * 2 ^ (p + 1) = D at *
    constructor
    · refine fun hlow => Nat.lt_of_not_le fun hN => ?_
      obtain rfl | hm : m = 2 ^ 53 - 1 ∨ m ≤ 2 ^ 53 - 2 := by omega
      · exact absurd (heven (by omega)) (by decide)
      · have hmD : m * D ≤ (2 ^ 53 - 2) * D := Nat.mul_le_mul_right D hm
        omega
    · refine fun hN => Nat.lt_of_not_le fun hlow => ?_
      obtain rfl : m = 2 ^ 53 := by omega
      omega
  · have hpow : d * 2 ^ p * 4 ≤ d * 2 ^ e := by
      rw [Nat.mul_assoc, show 2 ^ p * 4 = 2 ^ (p + 2) from (Nat.pow_add 2 p 2).symm]
      exact Nat.mul_le_mul_left d (Nat.pow_le_pow_right (by decide) he)
    exact iff_of_false (by omega) (by omega)

theorem midpoint_eq (d : Nat) : d * (2 ^ 2098 - 2 ^ 2044) = (2 ^ 54 - 1) * (d * 2 ^ 2044) := by
  generalize hp : 2044 = p
  have hpow : 2 ^ (54 + p) = 2 ^ 54 * 2 ^ p := Nat.pow_add 2 54 p
  rw [show 2098 = 54 + p by omega, hpow, ← Nat.sub_one_mul, Nat.mul_left_comm]

theorem midpoint_pos {d : Nat} (hd : 0 < d) : 0 < d * (2 ^ 2098 - 2 ^ 2044) := by
  rw [midpoint_eq]
  generalize 2044 = p
  exact Nat.mul_pos (by decide) (Nat.mul_pos hd (Nat.two_pow_pos p))

/-- Below the midpoint the packed step and significand are the nearest value, ties to even. -/
theorem IsStep.isNearestEven {N d e : Nat} (h : IsStep N d e) (hd : 0 < d) (s : Bool)
    (hlow : encodingAt N d e < 2047 * 2 ^ 52) : IsNearestEven (f64Pack s (encodingAt N d e)) (withSign s N) d := by
  obtain ⟨hmle, hmge⟩ := h.significand hd
  have hunits : f64Units (f64Pack s (encodingAt N d e)) = divHalfEven N (d * 2 ^ e) * 2 ^ e :=
    f64Units_pack_step s (by unfold encodingAt at hlow; omega) hmle hmge
  have hint : withSign s (f64Int (f64Pack s (encodingAt N d e))) = divHalfEven N (d * 2 ^ e) * 2 ^ e := by
    rw [f64Int_eq, f64Sign_pack, withSign_withSign, hunits]
    push_cast
    rfl
  refine ⟨f64IsFinite_pack s hlow, fun y _ => ?_⟩
  obtain ⟨hle, heven⟩ := h.nearest hd _ (f64Int_dvd_or_lt y e s)
  rw [← natAbs_withSign_sub, ← natAbs_withSign_sub, withSign_mul, withSign_mul, hint]
  refine ⟨hle, fun hne htie => ?_⟩
  have hm := heven (fun heq => hne ?_) htie
  · rw [f64Frac_pack, encodingAt]
    omega
  · rw [← withSign_withSign s (f64Int y), heq, ← hint, withSign_withSign]

/-- From the midpoint on the infinity of the sign is the overflow asked for. -/
theorem isOverflow_inf (s : Bool) {N d : Nat} (hd : 0 < d) (h : d * (2 ^ 2098 - 2 ^ 2044) ≤ N) :
    IsOverflow (f64Inf s) (withSign s N) d := by
  refine ⟨f64IsInf_inf s, by rwa [natAbs_withSign, Int.natAbs_natCast], ?_⟩
  have hpos : 0 < N := Nat.lt_of_lt_of_le (midpoint_pos hd) h
  rw [f64Sign_inf, withSign_neg_iff s (by omega)]

/-- `roundRat` rounds `n / d` correctly: the encoding it packs is below infinity's exactly below the midpoint. -/
theorem roundRat_isRounded (s : Bool) (n d : Nat) (hd : 0 < d) :
    IsRounded (roundRat s n d) (withSign s (n <<< 1074 : Nat)) d := by
  generalize hN : n <<< 1074 = N
  generalize he : Nat.log2 (N / d) - 52 = e
  have hstep : IsStep N d e := he ▸ isStep_log2 N d hd
  have hiff := hstep.encoding_lt_iff hd 2044
  rw [← midpoint_eq] at hiff
  rw [roundRat_eq s n d hN he]
  split
  · next hlow =>
    exact .inl ⟨by rw [natAbs_withSign, Int.natAbs_natCast]; exact hiff.1 hlow, hstep.isNearestEven hd s hlow⟩
  · next hlow => exact .inr (isOverflow_inf s hd (Nat.not_lt.1 fun h => hlow (hiff.2 h)))

/-- Being rounded depends on the exact quotient alone: a common factor cancels. -/
theorem isRounded_mul_right {r : F64} {n : Int} {d k : Nat} (hk : 0 < k) (h : IsRounded r (n * k) (d * k)) :
    IsRounded r n d := by
  have hbound : d * k * (2 ^ 2098 - 2 ^ 2044) = d * (2 ^ 2098 - 2 ^ 2044) * k := Nat.mul_right_comm ..
  have hdist (y : Int) : (y * (d * k : Nat) - n * k).natAbs = (y * d - n).natAbs * k := by
    rw [Int.natCast_mul, ← Int.mul_assoc, ← Int.sub_mul, Int.natAbs_mul, Int.natAbs_natCast]
  have hnk : (n * k).natAbs = n.natAbs * k := by rw [Int.natAbs_mul, Int.natAbs_natCast]
  rcases h with ⟨hlt, hfin, hnear⟩ | ⟨hinf, hle, hsign⟩
  · rw [hbound, hnk] at hlt
    simp only [hdist, Nat.mul_le_mul_right_iff hk, Nat.mul_left_inj (Nat.ne_of_gt hk)] at hnear
    exact .inl ⟨Nat.lt_of_mul_lt_mul_right hlt, hfin, hnear⟩
  · rw [hbound, hnk] at hle
    have hneg : n * k < 0 ↔ n < 0 := by
      rw [← Int.mul_lt_mul_right (a := k) (b := n) (c := 0) (by omega), Int.zero_mul]
    rw [hneg] at hsign
    exact .inr ⟨hinf, Nat.le_of_mul_le_mul_right hle hk, hsign⟩

theorem isRounded_shiftLeft {r : F64} {s : Bool} {n d t : Nat}
    (h : IsRounded r (withSign s (n <<< t : Nat)) (d <<< t)) : IsRounded r (withSign s n) d := by
  rw [withSign_shiftLeft, Nat.shiftLeft_eq] at h
  exact isRounded_mul_right (k := 2 ^ t) (Nat.two_pow_pos t) (by exact_mod_cast h)

/-- `n / d` units, as the operations give them to `roundRat`. -/
theorem roundRat_shiftLeft_isRounded (s : Bool) (n d : Nat) (hd : 0 < d) :
    IsRounded (roundRat s n (d <<< 1074)) (withSign s n) d := by
  have hpos : 0 < d <<< 1074 := by
    rw [Nat.shiftLeft_eq]
    exact Nat.mul_pos hd (Nat.two_pow_pos 1074)
  exact isRounded_shiftLeft (roundRat_isRounded s n (d <<< 1074) hpos)

/-- The same of `n / 2 ^ t` units. -/
theorem roundRat_shiftLeft_isRounded_two_pow (s : Bool) (n t : Nat) :
    IsRounded (roundRat s n (1 <<< t <<< 1074)) (withSign s n) (2 ^ t) := by
  rw [Nat.one_shiftLeft]
  exact roundRat_shiftLeft_isRounded s n (2 ^ t) (Nat.two_pow_pos t)

-- The operations

theorem isRounded_zero (s : Bool) : IsRounded (f64Zero s) 0 1 := by
  have hzero : f64Int (f64Zero s) = 0 := by cases s <;> decide
  have hfrac : f64Frac (f64Zero s) % 2 = 0 := by cases s <;> decide
  refine .inl ⟨?_, by cases s <;> decide, fun y _ => ⟨?_, fun _ _ => hfrac⟩⟩
  · rw [Int.natAbs_zero]
    exact midpoint_pos (d := 1) Nat.one_pos
  · rw [hzero, Int.zero_mul, Int.sub_zero]
    exact Nat.zero_le _

theorem roundUnits_isRounded (zeroSign : Bool) (z : Int) : IsRounded (roundUnits zeroSign z) z 1 := by
  unfold roundUnits
  split
  · next hz => exact hz ▸ isRounded_zero zeroSign
  · have h := roundRat_shiftLeft_isRounded (decide (z < 0)) z.natAbs 1 Nat.one_pos
    rwa [withSign_decide_natAbs] at h

theorem addCases_finite (nan : F64) {a b : F64} (ha : f64IsFinite a = true) (hb : f64IsFinite b = true) :
    addCases nan a b = roundUnits (f64Sign a && f64Sign b) (f64Int a + f64Int b) := by
  simp only [addCases, f64IsNaN_of_finite ha, f64IsNaN_of_finite hb, f64IsInf_of_finite ha, f64IsInf_of_finite hb,
    Bool.or_false, Bool.false_eq_true, if_false]

theorem fmul_finite {a b : F64} (ha : f64IsFinite a = true) (hb : f64IsFinite b = true) :
    fmul a b = roundRat (f64Sign a != f64Sign b) (f64Units a * f64Units b) (1 <<< 1074 <<< 1074) := by
  rw [← Nat.shiftLeft_add]
  simp only [fmul, f64IsNaN_of_finite ha, f64IsNaN_of_finite hb, f64IsInf_of_finite ha, f64IsInf_of_finite hb,
    Bool.or_false, Bool.false_eq_true, if_false]

theorem fdiv_finite {a b : F64} (ha : f64IsFinite a = true) (hb : f64IsFinite b = true) (hz : f64IsZero b = false) :
    fdiv a b = roundRat (f64Sign a != f64Sign b) (f64Units a) (f64Units b) := by
  simp only [fdiv, f64IsNaN_of_finite ha, f64IsNaN_of_finite hb, f64IsInf_of_finite ha, f64IsInf_of_finite hb, hz,
    Bool.or_false, Bool.false_eq_true, if_false]

theorem fadd_isRounded {a b : F64} (ha : f64IsFinite a = true) (hb : f64IsFinite b = true) :
    IsRounded (fadd a b) (f64Int a + f64Int b) 1 := by
  rw [fadd, addCases_finite _ ha hb]
  exact roundUnits_isRounded ..

theorem fsub_isRounded {a b : F64} (ha : f64IsFinite a = true) (hb : f64IsFinite b = true) :
    IsRounded (fsub a b) (f64Int a - f64Int b) 1 := by
  rw [fsub, addCases_finite _ ha (by rwa [f64IsFinite_neg]), f64Int_neg, ← Int.sub_eq_add_neg]
  exact roundUnits_isRounded ..

theorem fmul_isRounded {a b : F64} (ha : f64IsFinite a = true) (hb : f64IsFinite b = true) :
    IsRounded (fmul a b) (f64Int a * f64Int b) (2 ^ 1074) := by
  have h := roundRat_shiftLeft_isRounded_two_pow (f64Sign a != f64Sign b) (f64Units a * f64Units b) 1074
  rwa [Int.natCast_mul, withSign_bne, ← f64Int_eq, ← f64Int_eq, ← fmul_finite ha hb] at h

theorem fdiv_isRounded {a b : F64} (ha : f64IsFinite a = true) (hb : f64IsFinite b = true) (hne : f64Int b ≠ 0) :
    IsRounded (fdiv a b) (f64Int a * 2 ^ 1074 * (if f64Sign b then -1 else 1)) (f64Units b) := by
  have hunits : f64Units b ≠ 0 := by rwa [← natAbs_f64Int, Int.natAbs_ne_zero]
  have hz : f64IsZero b = false := by rwa [ne_eq, f64Units_eq_zero_iff, Bool.not_eq_true] at hunits
  have h := roundRat_isRounded (f64Sign a != f64Sign b) (f64Units a) (f64Units b) (Nat.pos_of_ne_zero hunits)
  rw [← Int.mul_one ((f64Units a <<< 1074 : Nat) : Int), withSign_bne, withSign_shiftLeft, ← f64Int_eq] at h
  rwa [fdiv_finite ha hb hz]

/-- Settles O59: each operation of finite operands is one `roundRat` of the exact result, which rounds correctly. -/
theorem arithmeticIsCorrectlyRounded : Obligations.ArithmeticIsCorrectlyRounded := by
  unfold Obligations.ArithmeticIsCorrectlyRounded
  exact fun a b ha hb =>
    ⟨fadd_isRounded ha hb, fsub_isRounded ha hb, fmul_isRounded ha hb, fdiv_isRounded ha hb⟩

end Sys2Proof.Machine
end

section
/-! SUPPORT. Effects of one operation: everything an instruction, a scan and a step can do to the state, said once. -/

namespace Sys2Proof.Machine

-- A run of the scanner

/-- The scanner examines positions from the cursor of the first state on: those that do not hold the marker are skipped, and
the last position examined gives the result and the second state (R102, R103). -/
inductive ScanRun : State → Result → State → Prop where
  | ended {s : State} (hloaded : s.loaded = true) (hend : s.len < s.cur + 16) : ScanRun s (.ended s.cur) (scanEnd s)
  | emitted {s : State} {bs : List Byte} (hloaded : s.loaded = true) (hle : s.cur + 16 ≤ s.len)
      (hread : readBytes s.buf s.cur 16 = some bs) (hmarker : bs.take 4 = markerBytes) :
      ScanRun s (.emitted (frameOfBytes bs) (s.cur + 16)) (scanEmit (frameOfBytes bs) s)
  | skipped {s : State} {w : List Byte} (hloaded : s.loaded = true) (hle : s.cur + 16 ≤ s.len)
      (hread : readBytes s.buf s.cur 4 = some w) (hmarker : w ≠ markerBytes) :
      ScanRun s (.skipped (s.cur + 1)) (scanSkip s)
  | skipThen {s t : State} {w : List Byte} {r : Result} (hloaded : s.loaded = true) (hle : s.cur + 16 ≤ s.len)
      (hread : readBytes s.buf s.cur 4 = some w) (hmarker : w ≠ markerBytes) (hrest : ScanRun (scanSkip s) r t) :
      ScanRun s r t

theorem ScanRun.loaded {s t : State} {r : Result} (h : ScanRun s r t) : s.loaded = true := by
  cases h <;> assumption

/-- A run of the scanner moves the cursor, forwards and not past `LEN`, and appends to HIST; it changes nothing else. -/
theorem ScanRun.frame {s t : State} {r : Result} (h : ScanRun s r t) :
    ∃ c es, t = { s with cur := c, hist := s.hist ++ es } ∧ s.cur ≤ c ∧ c ≤ max s.cur s.len := by
  induction h with
  | ended => exact ⟨_, _, rfl, Nat.le_refl _, Nat.le_max_left ..⟩
  | emitted _ hle => exact ⟨_, _, rfl, Nat.le_add_right .., Nat.le_trans hle (Nat.le_max_right ..)⟩
  | skipped _ hle => exact ⟨_, _, rfl, Nat.le_succ _, Nat.le_trans (by omega) (Nat.le_max_right ..)⟩
  | @skipThen s _ _ _ _ hle _ _ _ ih =>
    obtain ⟨c, es, rfl, hlo, hhi⟩ := ih
    simp only [scanSkip_cur, scanSkip_len] at hlo hhi
    exact ⟨c, .skip s.cur :: es, by simp [scanSkip, record], by omega, by omega⟩

/-- What a scan begun in a state comes to is a run of the scanner, or the refusal for want of a buffer, or a hole. -/
def Scan.From (s : State) : Scan → Prop
  | .noBuffer => s.loaded = false
  | .hole _ => True
  | .emitted f t => ScanRun s (.emitted f t.cur) t
  | .skipped t => ScanRun s (.skipped t.cur) t
  | .ended t => ScanRun s (.ended t.cur) t

theorem scanStep_from (s : State) : (scanStep s).From s := by
  rcases scanStep_cases s with ⟨hl, hs⟩ | ⟨hl, he, hs⟩ | ⟨_, _, hs, _⟩ | ⟨bs, hl, hle, hr, hm, hs⟩ | ⟨w, hl, hle, hr, hm, hs⟩
    <;> rw [hs]
  · exact hl
  · exact .ended hl he
  · trivial
  · exact .emitted hl hle hr hm
  · exact .skipped hl hle hr hm

/-- A scan from the position after a skipped one is a scan from the skipped one. -/
theorem Scan.From.of_scanSkip {s : State} {w : List Byte} {sc : Scan} (hl : s.loaded = true) (hle : s.cur + 16 ≤ s.len)
    (hr : readBytes s.buf s.cur 4 = some w) (hm : w ≠ markerBytes) (h : sc.From (scanSkip s)) : sc.From s := by
  cases sc with
  | noBuffer => exact h
  | hole => trivial
  | emitted | skipped | ended => exact .skipThen hl hle hr hm h

theorem scanNext_from (fuel : Nat) (s : State) : (scanNext fuel s).From s := by
  induction fuel generalizing s with
  | zero => exact scanStep_from s
  | succ fuel ih =>
    have hfrom := scanStep_from s
    rcases scanStep_cases s with ⟨_, hs⟩ | ⟨_, _, hs⟩ | ⟨_, _, hs, _⟩ | ⟨_, _, _, _, _, hs⟩ | ⟨w, hl, hle, hr, hm, hs⟩
      <;> rw [hs] at hfrom <;> rw [scanNext, hs]
    · exact hfrom
    · exact hfrom
    · exact hfrom
    · exact hfrom
    · exact .of_scanSkip hl hle hr hm (ih (scanSkip s))

-- An instruction

/-- Everything an instruction that answers a next state can do: a lane's result, a run of the scanner, a new buffer, a
rewound cursor, a row of the window on its own (log 12), or a recorded fault. -/
inductive Effect : Instr → State → State → Prop where
  | returned {i : Instr} {s : State} (r : Result) (hlane : readsOf i ≠ .scanner) : Effect i s (complete r s)
  | scanned {i : Instr} {s t : State} {r : Result} (hscanner : readsOf i = .scanner) (hrun : ScanRun s r t) :
      Effect i s (complete r t)
  | syncRow {s : State} {bs : List Byte} (hloaded : s.loaded = true) (hle : s.cur + 16 ≤ s.len)
      (hread : readBytes s.buf s.cur 16 = some bs) :
      Effect .sync s (complete (.emitted (frameOfBytes bs) (s.cur + 16)) (scanEmit (frameOfBytes bs) s))
  | nosyncRow {s : State} (win : U32) (hloaded : s.loaded = true) (hle : s.cur + 16 ≤ s.len) :
      Effect (.nosync win) s (complete (.skipped (s.cur + 1)) (scanSkip s))
  | loaded {s : State} {b : List Byte} (hfits : lenFits s.cfg b = true) :
      Effect (.load b) s (complete (.okCur 0) (record (.load b.length)
        { s with buf := memoryOf 0 b, len := b.length, loaded := true, cur := 0 }))
  | loadRefused {s : State} {b : List Byte} (hfits : lenFits s.cfg b = false) :
      Effect (.load b) s (recordFault .operandRange s)
  | restarted {s : State} (hloaded : s.loaded = true) :
      Effect .restart s (complete (.okCur 0) (record .restart { s with cur := 0 }))
  | noBuffer {i : Instr} {s : State} (hscanner : readsOf i = .scanner) (hloaded : s.loaded = false) :
      Effect i s (recordFault .noBuffer s)

/-- An operation of a stateless lane returns one result and does nothing else (R122, R163). -/
theorem exec_lane (i : Instr) (s : State) (h : readsOf i ≠ .scanner) : ∃ r, exec i s = .next (complete r s) := by
  cases i with
  | sync | nosync _ | load _ | restart | step | next => exact absurd rfl h
  | decodeHk f =>
    simp only [exec, execDecodeHk]
    split
    · exact ⟨_, rfl⟩
    · exact ⟨_, rfl⟩
  | _ => exact ⟨_, rfl⟩

/-- The result of a scan returned to the host is the effect of the instruction that scans. -/
theorem effect_of_scanFinish {i : Instr} {s t : State} {sc : Scan} (hi : readsOf i = .scanner) (hfrom : sc.From s)
    (h : scanFinish s sc = .next t) : Effect i s t := by
  cases sc with
  | noBuffer => cases h; exact .noBuffer hi hfrom
  | hole => cases h
  | emitted | skipped | ended => cases h; exact .scanned hi hfrom

/-- The tests before the window test, for an instruction that acts as `row` when they pass. -/
theorem effect_of_scanGuard {i : Instr} {row : State → Scan} {s t : State} (hi : readsOf i = .scanner)
    (hrow : s.loaded = true → s.cur + 16 ≤ s.len → scanFinish s (row s) = .next t → Effect i s t)
    (h : scanFinish s (scanGuard row s) = .next t) : Effect i s t := by
  unfold scanGuard at h
  cases hl : s.loaded with
  | false => exact effect_of_scanFinish (sc := .noBuffer) hi hl (by simpa [hl] using h)
  | true =>
    by_cases he : s.len < s.cur + 16
    · exact effect_of_scanFinish (sc := .ended (scanEnd s)) hi (.ended hl he) (by simpa [hl, atEnd, he] using h)
    · exact hrow hl (Nat.not_lt.1 he) (by simpa [hl, atEnd, he] using h)

theorem execSync_effect {s t : State} (h : execSync s = .next t) : Effect .sync s t := by
  refine effect_of_scanGuard rfl (fun hl hle hrow => ?_) h
  unfold rowSync at hrow
  split at hrow
  · next bs hread => cases hrow; exact .syncRow hl hle hread
  · cases hrow

theorem execNosync_effect {win : U32} {s t : State} (h : execNosync win s = .next t) : Effect (.nosync win) s t := by
  refine effect_of_scanGuard rfl (fun hl hle hrow => ?_) h
  cases hrow
  exact .nosyncRow win hl hle

theorem execLoad_effect {b : List Byte} {s t : State} (h : execLoad b s = .next t) : Effect (.load b) s t := by
  unfold execLoad at h
  split at h
  · next hfits => cases h; exact .loaded hfits
  · next hfits => cases h; exact .loadRefused (Bool.eq_false_iff.2 hfits)

theorem execRestart_effect {s t : State} (h : execRestart s = .next t) : Effect .restart s t := by
  unfold execRestart at h
  split at h
  · next hl => cases h; exact .noBuffer rfl (by simpa using hl)
  · next hl => cases h; exact .restarted (by simpa using hl)

/-- What an instruction does when it answers a next state. -/
theorem exec_effect {i : Instr} {s t : State} (h : exec i s = .next t) : Effect i s t := by
  by_cases hi : readsOf i = .scanner
  · cases i with
    | sync => exact execSync_effect h
    | nosync win => exact execNosync_effect h
    | load b => exact execLoad_effect h
    | restart => exact execRestart_effect h
    | step => exact effect_of_scanFinish hi (scanStep_from s) h
    | next => exact effect_of_scanFinish hi (scanNext_from _ s) h
    | _ => cases hi
  · obtain ⟨r, hr⟩ := exec_lane i s hi
    rw [hr] at h
    cases h
    exact .returned r hi

-- A step

theorem fetch_eq_some {s s' : State} {req : HostRequest} (h : fetch s = some (req, s')) :
    ∃ inbox order, s' = { s with inbox := inbox, laneOrder := order, active := req.tag } := by
  unfold fetch at h
  split at h
  · cases h; exact ⟨_, _, rfl⟩
  · cases h

/-- The host's command port issues operations only, none of the rows they select (R82). -/
theorem decodeHostWord_ne_sync {w : HostWord} {i : Instr} (h : decodeHostWord w = .ok i) : i ≠ .sync := by
  rintro rfl
  unfold decodeHostWord at h
  repeat' split at h
  all_goals cases h

/-- A property that taking an operation, recording a fault and every issued instruction keep is kept by a step. -/
theorem step_keeps {P : State → Prop}
    (htake : ∀ s inbox order tag, P s → P { s with inbox := inbox, laneOrder := order, active := tag })
    (hfault : ∀ why s, P s → P (recordFault why s))
    (hexec : ∀ i s t, i ≠ .sync → P s → exec i s = .next t → P t)
    {s t : State} (hs : P s) (h : step s = .next t) : P t := by
  unfold step at h
  split at h
  · cases h; exact hs
  · next req s' hfetch =>
    obtain ⟨inbox, order, rfl⟩ := fetch_eq_some hfetch
    have hs' := htake s inbox order req.tag hs
    split at h
    · next i hdec => exact hexec i _ t (decodeHostWord_ne_sync hdec) hs' h
    · cases h; exact hfault _ _ hs'

end Sys2Proof.Machine
end

section
/-! SUPPORT. The state's invariants: what reset leaves, what no instruction changes, and that BUF with its cursor and HIST
stay well formed (10_state.md R22 to R29, R38). -/

namespace Sys2Proof.Machine

-- The buffer invariant

/-- `BufInv` looks at the configuration, BUF, LEN, LOADED and CUR: where the first four stay, the cursor decides. -/
theorem BufInv.of_cursor {s t : State} (h : BufInv s) (hcfg : t.cfg = s.cfg) (hbuf : t.buf = s.buf) (hlen : t.len = s.len)
    (hloaded : t.loaded = s.loaded) (hle : s.loaded = true → t.cur ≤ s.len) (hidle : s.loaded = false → t.cur = 0) :
    BufInv t where
  canonical := by rw [hbuf]; exact h.canonical
  bytes := by rw [hbuf, hlen, hloaded]; exact h.bytes
  curLe := by rw [hlen, hloaded]; exact hle
  lenFits := by rw [hcfg, hlen]; exact h.lenFits
  idle := by rw [hloaded]; exact hidle

theorem BufInv.complete {s : State} (h : BufInv s) (r : Result) : BufInv (complete r s) :=
  h.of_cursor rfl rfl rfl rfl h.curLe h.idle

theorem BufInv.recordFault {s : State} (h : BufInv s) (why : FaultReason) : BufInv (recordFault why s) :=
  h.of_cursor (by simp) (by simp) (by simp) (by simp) (by simpa using h.curLe) (by simpa using h.idle)

/-- A loaded buffer keeps the invariant wherever the cursor moves below or to `LEN`. -/
theorem BufInv.of_loaded {s t : State} (h : BufInv s) (hl : s.loaded = true) (hcfg : t.cfg = s.cfg) (hbuf : t.buf = s.buf)
    (hlen : t.len = s.len) (hloaded : t.loaded = s.loaded) (hle : t.cur ≤ s.len) : BufInv t :=
  h.of_cursor hcfg hbuf hlen hloaded (fun _ => hle) (fun hf => by simp [hl] at hf)

/-- LOAD establishes the invariant, whatever stood there before (R100). -/
theorem bufInv_load {s : State} {b : List Byte} (hfits : lenFits s.cfg b = true) :
    BufInv { s with buf := memoryOf 0 b, len := b.length, loaded := true, cur := 0 } where
  canonical := memoryOf_wf b 0
  bytes := by simp [readByte_memoryOf_zero]
  curLe := by simp
  lenFits := (lenFits_iff s.cfg b).1 hfits
  idle := by simp

theorem ScanRun.bufInv {s t : State} {r : Result} (hrun : ScanRun s r t) (h : BufInv s) : BufInv t := by
  have hcur := h.curLe hrun.loaded
  have hl := hrun.loaded
  obtain ⟨c, es, rfl, -, hc⟩ := hrun.frame
  exact h.of_loaded hl rfl rfl rfl rfl (Nat.le_trans hc (Nat.max_le.2 ⟨hcur, Nat.le_refl _⟩))

theorem exec_keeps_bufInv {i : Instr} {s t : State} (h : BufInv s) (hexec : exec i s = .next t) : BufInv t := by
  cases exec_effect hexec with
  | returned r => exact h.complete r
  | scanned _ hrun => exact (hrun.bufInv h).complete _
  | syncRow hl hle => exact h.of_loaded hl rfl rfl rfl rfl hle
  | nosyncRow _ hl hle => exact h.of_loaded hl rfl rfl rfl rfl (by simp; omega)
  | loaded hfits => exact (bufInv_load hfits).of_loaded rfl rfl rfl rfl rfl (Nat.zero_le _)
  | loadRefused => exact h.recordFault _
  | restarted hl => exact h.of_loaded hl rfl rfl rfl rfl (Nat.zero_le _)
  | noBuffer => exact h.recordFault _

/-- Settles O27: every effect of an instruction leaves BUF, LEN and LOADED and keeps CUR within LEN, but LOAD, which
establishes the invariant anew. -/
theorem stepKeepsTheBufferInvariant : Obligations.StepKeepsTheBufferInvariant := by
  unfold Obligations.StepKeepsTheBufferInvariant
  exact fun s t h => step_keeps (fun s _ _ _ h => h.of_cursor rfl rfl rfl rfl h.curLe h.idle)
    (fun why _ h => h.recordFault why) (fun _ _ _ _ h => exec_keeps_bufInv h) h

-- The history

theorem replayFrom_append_singleton (p : ScanPos) (es : List Event) (e : Event) :
    replayFrom p (es ++ [e]) = (replayFrom p es).bind fun q => replayEvent q e := by
  induction es generalizing p with
  | nil => cases h : replayEvent p e <;> simp [replayFrom, h]
  | cons x xs ih => cases h : replayEvent p x <;> simp [replayFrom, h, ih]

/-- A history that explains a state explains the next one with the event that leads there. -/
theorem HistExplains.snoc {s t : State} {e : Event} (h : HistExplains s) (hhist : t.hist = s.hist ++ [e])
    (hevent : replayEvent ⟨s.loaded, s.len, s.cur⟩ e = some ⟨t.loaded, t.len, t.cur⟩) : HistExplains t := by
  unfold HistExplains at *
  rw [hhist, replayFrom_append_singleton, h]
  exact hevent

theorem HistExplains.recordFault {s : State} (h : HistExplains s) (why : FaultReason) :
    HistExplains (recordFault why s) := by
  simpa [HistExplains] using h

/-- The marker slot of a frame is the word of its first four bytes (20_memory.md R50). -/
theorem frameW0_frameOfBytes (bs : List Byte) (h : bs.length = 16) :
    frameW0 (frameOfBytes bs) = windowOfBytes (bs.take 4) := by
  have happ := beValue_append (bs.take 4) (bs.drop 4)
  have hlo := beValue_lt (bs.drop 4)
  have hhi := beValue_lt (bs.take 4)
  simp only [List.take_append_drop, List.length_drop, List.length_take, h] at happ hlo hhi
  apply BitVec.eq_of_toNat_eq
  simp only [frameW0, frameOfBytes, windowOfBytes, BitVec.extractLsb'_toNat, BitVec.toNat_ofNat, Nat.shiftRight_eq_div_pow]
  omega

theorem frameW0_eq_marker {bs : List Byte} (h : bs.length = 16) (hm : bs.take 4 = markerBytes) :
    frameW0 (frameOfBytes bs) = marker := by
  rw [frameW0_frameOfBytes bs h]
  exact (windowOfBytes_eq_marker_iff _ (by simp [h])).2 hm

theorem HistExplains.scanSkip {s : State} (h : HistExplains s) (hl : s.loaded = true) (hle : s.cur + 16 ≤ s.len) :
    HistExplains (scanSkip s) :=
  h.snoc rfl (by simp [replayEvent, hl, hle])

theorem ScanRun.histExplains {s t : State} {r : Result} (hrun : ScanRun s r t) (h : HistExplains s) : HistExplains t := by
  induction hrun with
  | ended hl hend => exact h.snoc rfl (by simp [replayEvent, hl, hend])
  | emitted hl hle hread hm =>
    have hlen := ((readBytes_eq_some_iff _ _ _ _).1 hread).1
    exact h.snoc rfl (by simp [replayEvent, hl, hle, frameW0_eq_marker hlen hm])
  | skipped hl hle => exact h.scanSkip hl hle
  | skipThen hl hle _ _ _ ih => exact ih (h.scanSkip hl hle)

/-- The row SYNC is left out: on its own it emits without looking at the window (log 12). -/
theorem exec_keeps_histExplains {i : Instr} {s t : State} (hi : i ≠ .sync) (h : HistExplains s)
    (hexec : exec i s = .next t) : HistExplains t := by
  cases exec_effect hexec with
  | returned => exact h
  | scanned _ hrun => exact hrun.histExplains h
  | syncRow => exact absurd rfl hi
  | nosyncRow _ hl hle => exact h.scanSkip hl hle
  | loaded => exact h.snoc rfl rfl
  | loadRefused => exact h.recordFault _
  | restarted hl => exact h.snoc rfl (by simp [replayEvent, hl])
  | noBuffer => exact h.recordFault _

/-- Settles O28: each event an issued operation appends is the one `replayEvent` reads back as the change of LOADED, LEN and
CUR; the emitting row on its own, which the host cannot issue, is the one exception. -/
theorem stepKeepsTheHistoryTrue : Obligations.StepKeepsTheHistoryTrue := by
  unfold Obligations.StepKeepsTheHistoryTrue
  exact fun s t h => step_keeps (fun _ _ _ _ h => h) (fun why _ h => h.recordFault why)
    (fun _ _ _ hi h => exec_keeps_histExplains hi h) h

-- The derived predicate DONE

theorem doneFlag_iff (s : State) : doneFlag s = true ↔ s.loaded = true ∧ s.len < s.cur + 16 := by
  simp [doneFlag, atEnd]

/-- Settles O23: of the ways a STEP can come out only the stop branch returns END, and its guard is DONE. -/
theorem doneMeansStepReturnsEnd : Obligations.DoneMeansStepReturnsEnd := by
  unfold Obligations.DoneMeansStepReturnsEnd
  intro s
  rw [doneFlag_iff]
  constructor
  · rintro ⟨hl, hend⟩
    exact ⟨complete (.ended s.cur) (scanEnd s), s.cur, by simp [exec, execStep, scanStep_ended hl hend, scanFinish], rfl⟩
  · rintro ⟨t, c, hexec, hres⟩
    change scanFinish s (scanStep s) = .next t at hexec
    rcases scanStep_cases s with ⟨_, hs⟩ | ⟨hl, hend, _⟩ | ⟨_, _, hs, _⟩ | ⟨bs, _, _, _, _, hs⟩ | ⟨w, _, _, _, _, hs⟩
    · rw [hs] at hexec; cases hexec; simp at hres
    · exact ⟨hl, hend⟩
    · rw [hs] at hexec; cases hexec
    · rw [hs] at hexec; cases hexec; simp at hres
    · rw [hs] at hexec; cases hexec; simp at hres

-- What no instruction changes

/-- Settles O26: of every effect, the fields no instruction writes stay, and HIST and the results are appended to. -/
theorem configurationAndInboxStay : Obligations.ConfigurationAndInboxStay := by
  unfold Obligations.ConfigurationAndInboxStay
  intro i s t hexec
  cases exec_effect hexec with
  | returned => exact ⟨rfl, rfl, rfl, rfl, ⟨[], by simp⟩, _, rfl, by simp⟩
  | scanned _ hrun =>
    obtain ⟨c, es, rfl, -, -⟩ := hrun.frame
    exact ⟨rfl, rfl, rfl, rfl, ⟨es, rfl⟩, _, rfl, by simp⟩
  | syncRow | nosyncRow | loaded | restarted => exact ⟨rfl, rfl, rfl, rfl, ⟨_, rfl⟩, _, rfl, by simp⟩
  | loadRefused | noBuffer => exact ⟨by simp, by simp, by simp, by simp, ⟨[], by simp⟩, [], by simp, by simp⟩

-- Reset

/-- Settles O1: reset sets these fields so, and lists no byte of BUF. -/
theorem resetLeavesTheScannerIdle : Obligations.ResetLeavesTheScannerIdle := by
  unfold Obligations.ResetLeavesTheScannerIdle
  exact ⟨rfl, rfl, rfl, rfl, readByte_nil⟩

end Sys2Proof.Machine
end

section
/-! SUPPORT. The bytes of a frame: every field is the big-endian value of its bytes (20_memory.md R50). -/

namespace Sys2Proof.Machine

@[simp] theorem beValue_singleton (b : Byte) : beValue [b] = b.toNat := by simp [beValue]

/-- The bytes are the digits of their big-endian value to the base 256: dividing drops those after, the remainder those
before. -/
theorem beValue_middle (xs ys zs : List Byte) :
    beValue (xs ++ (ys ++ zs)) / 256 ^ zs.length % 256 ^ ys.length = beValue ys := by
  have hval : beValue (xs ++ (ys ++ zs)) =
      256 ^ zs.length * (256 ^ ys.length * beValue xs + beValue ys) + beValue zs := by
    rw [beValue_append, beValue_append, List.length_append, Nat.pow_add, Nat.mul_add, Nat.add_assoc,
      Nat.mul_comm (beValue ys), Nat.mul_comm (beValue xs), Nat.mul_comm (256 ^ ys.length), Nat.mul_assoc]
  rw [hval, Nat.mul_add_div (Nat.pow_pos (by decide)), Nat.div_eq_of_lt (beValue_lt zs), Nat.add_zero, Nat.mul_add_mod,
    Nat.mod_eq_of_lt (beValue_lt ys)]

/-- A field of `n` bytes at frame offset `a`, after which `m` bytes stand (R50, R71). -/
theorem frameOfBytes_field {bs : List Byte} (h : bs.length = 16) (a n m : Nat) (hsum : a + n + m = 16) :
    ((frameOfBytes bs).extractLsb' (8 * m) (8 * n)).toNat = beValue ((bs.drop a).take n) := by
  have hlt : beValue bs < 2 ^ 128 := by simpa [h] using beValue_lt bs
  have hmid := beValue_middle (bs.take a) ((bs.drop a).take n) ((bs.drop a).drop n)
  rw [List.take_append_drop, List.take_append_drop, List.length_take, List.length_drop, List.length_drop, h,
    show 16 - a - n = m by omega, show min n (16 - a) = n by omega] at hmid
  rw [← hmid, frameOfBytes, BitVec.extractLsb'_toNat, BitVec.toNat_ofNat, Nat.mod_eq_of_lt hlt,
    Nat.shiftRight_eq_div_pow, Nat.pow_mul, Nat.pow_mul]

theorem frameByte_frameOfBytes {bs : List Byte} (h : bs.length = 16) {k : Nat} (hk : k < bs.length) :
    frameByte (frameOfBytes bs) k = bs[k] := by
  have hfield := frameOfBytes_field h k 1 (15 - k) (by omega)
  rw [List.drop_eq_getElem_cons hk, List.take_succ_cons, List.take_zero, beValue_singleton, Nat.mul_sub] at hfield
  exact BitVec.eq_of_toNat_eq hfield

theorem frameBytes_frameOfBytes {bs : List Byte} (h : bs.length = 16) : frameBytes (frameOfBytes bs) = bs := by
  refine List.ext_getElem (by simp [frameBytes, h]) fun k _ hk => ?_
  rw [← frameByte_frameOfBytes h hk]
  simp [frameBytes]

/-- Settles O8: each of the six fields is one of the slices that `frameOfBytes_field` reads, and so is each single byte. -/
theorem frameFieldsAreBigEndian : Obligations.FrameFieldsAreBigEndian := by
  unfold Obligations.FrameFieldsAreBigEndian
  exact fun bs h =>
    ⟨frameOfBytes_field h 0 4 12 rfl, frameOfBytes_field h 4 4 8 rfl, frameOfBytes_field h 8 2 6 rfl,
      frameOfBytes_field h 10 2 4 rfl, frameOfBytes_field h 12 2 2 rfl, frameOfBytes_field h 14 2 0 rfl,
      frameBytes_frameOfBytes h⟩

end Sys2Proof.Machine
end

section
/-! SUPPORT. Accesses of BUF: what an instruction leaves of the buffer, and where reading it stops the machine
(20_memory.md R57, R59, R63). -/

namespace Sys2Proof.Machine

/-- Settles O25: of every effect but LOAD's new buffer, BUF, LEN and LOADED stay. -/
theorem onlyLoadChangesTheBuffer : Obligations.OnlyLoadChangesTheBuffer := by
  unfold Obligations.OnlyLoadChangesTheBuffer
  intro i s t hexec hi
  have hkept : t.buf = s.buf ∧ t.len = s.len ∧ t.loaded = s.loaded := by
    cases exec_effect hexec with
    | scanned _ hrun =>
      obtain ⟨c, es, rfl, -, -⟩ := hrun.frame
      exact ⟨rfl, rfl, rfl⟩
    | returned | syncRow | nosyncRow | restarted => exact ⟨rfl, rfl, rfl⟩
    | loaded | loadRefused => exact absurd rfl (hi _)
    | noBuffer => exact ⟨by simp, by simp, by simp⟩
  obtain ⟨hbuf, hlen, hloaded⟩ := hkept
  exact ⟨hbuf, hlen, hloaded, fun off => by rw [hbuf]⟩

/-- The 16 bytes from an offset on lie below LEN and one of them is missing. -/
structure HoleAt (s : State) (off : Nat) : Prop where
  loaded : s.loaded = true
  le : off + 16 ≤ s.len
  read : readBytes s.buf off 16 = none

theorem HoleAt.exists_missing {s : State} {off : Nat} (h : HoleAt s off) :
    ∃ k, k < 16 ∧ readByte s.buf (off + k) = none :=
  readBytes_eq_none _ _ _ h.read

/-- The buffer invariant leaves no hole below LEN (R22, R59). -/
theorem BufInv.not_holeAt {s : State} (h : BufInv s) (off : Nat) : ¬ HoleAt s off := by
  intro hhole
  obtain ⟨k, hk, hnone⟩ := hhole.exists_missing
  have hle := hhole.le
  have hsome := (h.bytes hhole.loaded (off + k)).2 (by omega)
  simp [hnone] at hsome

theorem scanStep_hole {s : State} {off : Nat} (h : scanStep s = .hole off) : HoleAt s off := by
  rcases scanStep_cases s with ⟨_, hs⟩ | ⟨_, _, hs⟩ | ⟨hl, hle, hs, hread⟩ | ⟨_, _, _, _, _, hs⟩ | ⟨_, _, _, _, _, hs⟩
    <;> rw [hs] at h <;> cases h
  exact ⟨hl, hle, hread⟩

theorem scanNext_hole {fuel : Nat} {s : State} {off : Nat} (h : scanNext fuel s = .hole off) : HoleAt s off := by
  induction fuel generalizing s with
  | zero => exact scanStep_hole h
  | succ fuel ih =>
    rw [scanNext] at h
    split at h
    · next s' hskip =>
      have hfrom := scanStep_from s
      rw [hskip] at hfrom
      obtain ⟨c, es, rfl, -, -⟩ := ScanRun.frame hfrom
      obtain ⟨hl, hle, hread⟩ := ih h
      exact ⟨hl, hle, hread⟩
    · cases h
    · next hhole => cases h; exact scanStep_hole hhole
    · cases h
    · cases h

theorem scanGuard_rowSync_hole {s : State} {off : Nat} (h : scanGuard rowSync s = .hole off) : HoleAt s off := by
  unfold scanGuard rowSync at h
  split at h
  · cases h
  · next hl =>
    split at h
    · cases h
    · next hend =>
      split at h
      · cases h
      · next hread => cases h; exact ⟨by simpa using hl, by simpa [atEnd] using hend, hread⟩

theorem scanGuard_rowNosync_ne_hole (s : State) (off : Nat) : scanGuard rowNosync s ≠ .hole off := by
  unfold scanGuard rowNosync
  split
  · simp
  · split <;> simp

/-- The two ways an instruction can come out: it answers a next state, or it stops at a hole in the buffer (log 6). -/
inductive Answers (s : State) : Host.Outcome State Fault Refusal → Prop where
  | next (t : State) : Answers s (.next t)
  | hole {off : Nat} (hhole : HoleAt s off) : Answers s (.fault (.bufferHole off))

/-- A scan's result is returned; of all it can come to, only a hole stops the machine. -/
theorem answers_scanFinish {s : State} {sc : Scan} (h : ∀ off, sc = .hole off → HoleAt s off) :
    Answers s (scanFinish s sc) := by
  cases sc with
  | hole off => exact .hole (h off rfl)
  | noBuffer | emitted | skipped | ended => exact .next _

theorem exec_answers (i : Instr) (s : State) : Answers s (exec i s) := by
  by_cases hi : readsOf i = .scanner
  · cases i with
    | sync => exact answers_scanFinish fun _ => scanGuard_rowSync_hole
    | nosync => exact answers_scanFinish fun off h => absurd h (scanGuard_rowNosync_ne_hole s off)
    | step => exact answers_scanFinish fun _ => scanStep_hole
    | next => exact answers_scanFinish fun _ => scanNext_hole
    | load =>
      simp only [exec, execLoad]
      split
      · exact .next _
      · exact .next _
    | restart =>
      simp only [exec, execRestart]
      split
      · exact .next _
      · exact .next _
    | _ => cases hi
  · obtain ⟨r, hr⟩ := exec_lane i s hi
    rw [hr]
    exact .next _

/-- Settles O36: an instruction that does not answer stops at a hole, and in a hole a byte is missing. -/
theorem theOnlyStopIsAHoleInTheBuffer : Obligations.TheOnlyStopIsAHoleInTheBuffer := by
  unfold Obligations.TheOnlyStopIsAHoleInTheBuffer
  intro i s
  have hans := exec_answers i s
  generalize exec i s = out at hans ⊢
  cases hans with
  | next t => exact ⟨nofun, nofun⟩
  | @hole off hhole =>
    obtain ⟨k, hk, hnone⟩ := hhole.exists_missing
    exact ⟨nofun, fun _ h => ⟨off, k, by cases h; rfl, hhole.le, hk, hnone⟩⟩

/-- Settles O37: the one other way for an instruction to come out is a hole, and the invariant leaves none. -/
theorem everyInstructionAnswers : Obligations.EveryInstructionAnswers := by
  unfold Obligations.EveryInstructionAnswers
  intro i s hinv
  have hans := exec_answers i s
  generalize exec i s = out at hans ⊢
  cases hans with
  | next t => exact ⟨t, rfl⟩
  | hole hhole => exact absurd hhole (hinv.not_holeAt _)

end Sys2Proof.Machine
end

section
/-! SUPPORT. Taking an operation, and the stateless lanes: which operation a step takes, and that the order in which lane
operations complete changes no result (20_memory.md R61, R62). -/

namespace Sys2Proof.Machine

-- Which operation is taken

theorem pick_lt {s : State} (h : s.inbox ≠ []) : pick s < s.inbox.length := by
  have hpos := List.length_pos_iff.2 h
  have hle : laneCount s.inbox ≤ s.inbox.length := (List.takeWhile_prefix _).length_le
  simp only [pick]
  split
  · omega
  · exact hpos

theorem pick_eq_zero {s : State} (h : s.laneOrder = []) : pick s = 0 := by simp [pick, h]

theorem pick_lt_laneCount {s : State} (h : 0 < pick s) : pick s < laneCount s.inbox := by
  simp only [pick] at h ⊢
  split at h
  · next hk => rwa [if_pos hk]
  · cases h

theorem isLaneOp_of_lt_laneCount {inbox : List HostRequest} {q : Nat} {x : HostRequest} (hq : q < laneCount inbox)
    (hx : inbox[q]? = some x) : isLaneOp x = true := by
  have hget := (List.takeWhile_prefix (l := inbox) isLaneOp).getElem hq
  have hmem := List.getElem_mem (l := inbox.takeWhile isLaneOp) hq
  obtain ⟨_, rfl⟩ := List.getElem?_eq_some_iff.1 hx
  rw [hget] at hmem
  exact List.all_eq_true.1 List.all_takeWhile _ hmem

theorem fetch_eq {s : State} {r : HostRequest} (h : s.inbox[pick s]? = some r) :
    fetch s =
      some (r, { s with inbox := s.inbox.eraseIdx (pick s), laneOrder := s.laneOrder.tail, active := r.tag }) := by
  simp [fetch, h]

theorem step_eq_exec {s s' : State} {r : HostRequest} {i : Instr} (hfetch : fetch s = some (r, s'))
    (hdec : decodeHostWord r.word = .ok i) : step s = exec i s' := by
  simp [step, hfetch, hdec]

/-- Settles O9: with no lane choice pending the operation taken is the oldest, and a step runs what it decodes to. -/
theorem stepRunsTheDecodedOperation : Obligations.StepRunsTheDecodedOperation := by
  unfold Obligations.StepRunsTheDecodedOperation
  intro s r rest i hinbox horder hdec
  have hpick := pick_eq_zero horder
  rw [step_eq_exec (fetch_eq (r := r) (by simp [hpick, hinbox])) hdec]
  simp [hpick, hinbox, horder]

/-- Settles O11: the operation taken is the one `pick` names, and `pick` passes over operations only within the lane
operations at the front of the inbox. -/
theorem onlyLaneOperationsPassLaneOperations : Obligations.OnlyLaneOperationsPassLaneOperations := by
  unfold Obligations.OnlyLaneOperationsPassLaneOperations
  intro s hne
  have hget := List.getElem?_eq_getElem (pick_lt hne)
  exact ⟨pick s, _, hget, fetch_eq hget, fun hpos q x hle hx =>
    isLaneOp_of_lt_laneCount (Nat.lt_of_le_of_lt hle (pick_lt_laneCount hpos)) hx⟩

-- The stateless lanes

/-- What a lane operation returns: a function of the operation and the configuration (R122, R163). -/
def laneResult (cfg : Config) (w : HostWord) : Result :=
  if w.op = 0x10 then .okSci (sciSample cfg w.frame)
  else if w.op = 0x11 then (if frameHkt w.frame then .okHk (hkSample w.frame) else .noSample)
  else calibrateResult cfg w.id w.raw w.vpc w.unit

/-- The result of a lane operation with the host's tag. -/
def laneCompletion (cfg : Config) (r : HostRequest) : Completion := ⟨r.tag, laneResult cfg r.word⟩

theorem isLaneOp_iff (r : HostRequest) :
    isLaneOp r = true ↔ r.word.op = 0x10 ∨ r.word.op = 0x11 ∨ r.word.op = 0x20 := by
  simp [isLaneOp, or_assoc]

/-- A step that takes a lane operation returns its result and changes nothing else (R122, R163). -/
theorem step_of_isLaneOp {s s' : State} {r : HostRequest} (hlane : isLaneOp r = true)
    (hfetch : fetch s = some (r, s')) : step s = .next (complete (laneResult s'.cfg r.word) s') := by
  rcases (isLaneOp_iff r).1 hlane with hop | hop | hop
  · rw [step_eq_exec hfetch (i := .decodeSci r.word.frame) (by simp [decodeHostWord, hop])]
    simp [exec, execDecodeSci, sciReturn, laneResult, hop]
  · rw [step_eq_exec hfetch (i := .decodeHk r.word.frame) (by simp [decodeHostWord, hop])]
    by_cases hkt : frameHkt r.word.frame <;> simp [exec, execDecodeHk, hkReturn, laneResult, hop, hkt]
  · rw [step_eq_exec hfetch (i := .calibrate r.word.id r.word.raw r.word.vpc r.word.unit)
      (by simp [decodeHostWord, hop])]
    simp [exec, execCalibrate, laneResult, hop]

/-- A list is, up to order, one of its elements and the rest. Mathlib has this; the package builds without Mathlib. -/
theorem getElem_cons_eraseIdx_perm {α : Type} {l : List α} {p : Nat} (h : p < l.length) : (l[p] :: l.eraseIdx p).Perm l := by
  have hmiddle := List.perm_middle (a := l[p]) (l₁ := l.take p) (l₂ := l.drop (p + 1))
  rw [← List.drop_eq_getElem_cons h, List.take_append_drop, ← List.eraseIdx_eq_take_drop_succ] at hmiddle
  exact hmiddle.symm

theorem run_succ {s t : State} (h : step s = .next t) (n : Nat) :
    Host.Core.run Sys2Proof.core (n + 1) s = Host.Core.run Sys2Proof.core n t := by
  have hstep : Sys2Proof.core.step s = .next t := h
  simp only [Host.Core.run, hstep]

/-- Running all of a queue of lane operations returns the result of each once, in some order, and nothing of the block
changes: each step takes one operation out of the inbox and appends its result. -/
theorem run_laneOps (n : Nat) {s : State} (hlen : s.inbox.length = n) (hlane : ∀ r ∈ s.inbox, isLaneOp r = true) :
    ∃ order tag answers,
      Host.Core.run Sys2Proof.core n s =
        .next { s with inbox := [], laneOrder := order, active := tag, results := s.results ++ answers } ∧
      answers.Perm (s.inbox.map (laneCompletion s.cfg)) := by
  induction n generalizing s with
  | zero =>
    have hnil := List.length_eq_zero_iff.1 hlen
    exact ⟨s.laneOrder, s.active, [], by simp [Host.Core.run, ← hnil], by simp [hnil]⟩
  | succ n ih =>
    have hlt : pick s < s.inbox.length := pick_lt (List.length_pos_iff.1 (by omega))
    have hstep := step_of_isLaneOp (hlane _ (List.getElem_mem hlt)) (fetch_eq (List.getElem?_eq_getElem hlt))
    obtain ⟨order, tag, answers, hrun, hperm⟩ := ih
      (s := complete (laneResult s.cfg s.inbox[pick s].word)
        { s with inbox := s.inbox.eraseIdx (pick s), laneOrder := s.laneOrder.tail, active := s.inbox[pick s].tag })
      (by simp [List.length_eraseIdx_of_lt hlt, hlen])
      (fun r hr => hlane r (List.mem_of_mem_eraseIdx hr))
    refine ⟨order, tag, laneCompletion s.cfg s.inbox[pick s] :: answers, ?_, ?_⟩
    · rw [run_succ hstep]
      simpa [complete, laneCompletion] using hrun
    · exact (hperm.cons _).trans ((getElem_cons_eraseIdx_perm hlt).map _)

/-- Settles O12: under every order the answers are those of the waiting operations, each once, which no order enters. -/
theorem laneCompletionOrderChangesNoResult : Obligations.LaneCompletionOrderChangesNoResult := by
  unfold Obligations.LaneCompletionOrderChangesNoResult
  intro s o1 o2 hlane
  obtain ⟨_, _, answers1, hrun1, hperm1⟩ := run_laneOps _ (s := { s with laneOrder := o1 }) rfl hlane
  obtain ⟨_, _, answers2, hrun2, hperm2⟩ := run_laneOps _ (s := { s with laneOrder := o2 }) rfl hlane
  have hlen : answers1.length = s.inbox.length := by simpa using hperm1.length_eq
  exact ⟨_, _, hrun1, hrun2, (hperm1.trans hperm2.symm).append_left _, by simp [hlen], rfl, rfl, rfl, rfl⟩

end Sys2Proof.Machine
end

section
/-! SUPPORT. Encoding: the decoders and the encoder undo each other, and every word belongs to one row of the opcode table
(30_encoding.md R80 to R92). A fact of the `cal_sel` rows is a fact of the 512 selectors, since the decoder carries
CALIBRATE's other operands along (`decodeCalSel_with`). -/

namespace Sys2Proof.Laws.RowMatch

/-- The words of every well-formed instruction belong to its row of the table. -/
theorem statement (i : Instr) : Statement i :=
  match i with
  | .sync => sync
  | .nosync _ => nosync _
  | .hkFrame _ => hkFrame _
  | .nonHkFrame _ => nonHkFrame _
  | .sciAnyW1 _ => sciAnyW1 _
  | .calId0 _ _ _ => calId0 _ _ _
  | .calId1 _ _ _ => calId1 _ _ _
  | .calId2 _ _ _ => calId2 _ _ _
  | .calId3 _ _ _ => calId3 _ _ _
  | .calId4U1 _ _ => calId4U1 _ _
  | .calId4U2 _ _ => calId4U2 _ _
  | .calId5 _ _ _ => calId5 _ _ _
  | .calId6U1 _ _ => calId6U1 _ _
  | .calId6U2 _ _ => calId6U2 _ _
  | .calId7 _ _ _ => calId7 _ _ _
  | .calId8U1 _ _ => calId8U1 _ _
  | .calId8U2 _ _ => calId8U2 _ _
  | .calId9 _ _ _ => calId9 _ _ _
  | .calId10 _ _ _ => calId10 _ _ _
  | .calId11 _ _ _ => calId11 _ _ _
  | .calId12 _ _ _ => calId12 _ _ _
  | .calId13 _ _ _ => calId13 _ _ _
  | .calId14 _ _ _ => calId14 _ _ _
  | .calId15 _ _ _ => calId15 _ _ _
  | .calUnknownA _ _ _ _ => calUnknownA _ _ _ _
  | .calUnknownB _ _ _ _ => calUnknownB _ _ _ _
  | .calUnknownC _ _ _ _ => calUnknownC _ _ _ _
  | .calUnknownD _ _ _ _ => calUnknownD _ _ _ _
  | .load _ => load _
  | .restart => restart
  | .step => step
  | .next => next
  | .decodeSci _ => decodeSci _
  | .decodeHk _ => decodeHk _
  | .calibrate _ _ _ _ => calibrate _ _ _ _

end Sys2Proof.Laws.RowMatch

namespace Sys2Proof.Machine

-- The window and the kind bit

@[simp] theorem decodeWindow_marker : decodeWindow marker = .sync := if_pos rfl

theorem decodeWindow_of_ne {w : U32} (h : w ≠ marker) : decodeWindow w = .nosync w := if_neg h

theorem decodeFrameHk_of_hkt {f : RawFrame} (h : frameHkt f = true) : decodeFrameHk f = .hkFrame f := if_pos h

theorem decodeFrameHk_of_not_hkt {f : RawFrame} (h : frameHkt f = false) : decodeFrameHk f = .nonHkFrame f := by
  simp [decodeFrameHk, h]

theorem decodeWindow_wf (w : U32) : (decodeWindow w).wf = true := by
  by_cases h : w = marker
  · rw [h]; rfl
  · rw [decodeWindow_of_ne h]; simpa [Instr.wf] using h

theorem encode_decodeWindow (w : U32) : encode (decodeWindow w) = .window w := by
  by_cases h : w = marker
  · rw [h]; rfl
  · rw [decodeWindow_of_ne h]; rfl

theorem decodeFrameHk_wf (f : RawFrame) : (decodeFrameHk f).wf = true := by
  cases h : frameHkt f with
  | true => rw [decodeFrameHk_of_hkt h]; exact h
  | false => rw [decodeFrameHk_of_not_hkt h]; simp [Instr.wf, h]

theorem encode_decodeFrameHk (f : RawFrame) : encode (decodeFrameHk f) = .frameHk f := by
  cases h : frameHkt f with
  | true => rw [decodeFrameHk_of_hkt h]; rfl
  | false => rw [decodeFrameHk_of_not_hkt h]; rfl

-- The calibration selector

@[simp] theorem calWith_wf (raw : U16) (vpc : F64) (i : Instr) : (calWith raw vpc i).wf = i.wf := by
  cases i <;> rfl

/-- CALIBRATE's other operands stand beside the selector and leave it alone. -/
theorem encode_calWith {i : Instr} {sel : Sel} {raw0 : U16} {vpc0 : F64} (h : encode i = .calSel sel raw0 vpc0)
    (raw : U16) (vpc : F64) : encode (calWith raw vpc i) = .calSel sel raw vpc := by
  cases i <;> cases h <;> rfl

theorem decodeCalSel_wf (sel : Sel) (raw : U16) (vpc : F64) : (decodeCalSel sel raw vpc).wf = true := by
  have hsel : ∀ sel : Sel, (decodeCalSel sel 0 0).wf = true := by decide +kernel
  rw [decodeCalSel_with, calWith_wf, hsel]

theorem encode_decodeCalSel (sel : Sel) (raw : U16) (vpc : F64) :
    encode (decodeCalSel sel raw vpc) = .calSel sel raw vpc := by
  have hsel : ∀ sel : Sel, encode (decodeCalSel sel 0 0) = .calSel sel 0 0 := by decide +kernel
  rw [decodeCalSel_with, encode_calWith (hsel sel)]

theorem decodeCalSel_unknownA (unit : HardwareUnit) (low : BitVec 7) (raw : U16) (vpc : F64) :
    decodeCalSel (selOf unit.bit ((1 : BitVec 1) ++ low)) raw vpc = .calUnknownA unit low raw vpc := by
  have hsel : ∀ b low, decodeCalSel (selOf b ((1 : BitVec 1) ++ low)) 0 0 = .calUnknownA (.ofBit b) low 0 0 := by
    decide +kernel
  rw [decodeCalSel_with, hsel, ofBit_bit]; rfl

theorem decodeCalSel_unknownB (unit : HardwareUnit) (low : BitVec 6) (raw : U16) (vpc : F64) :
    decodeCalSel (selOf unit.bit ((1 : BitVec 2) ++ low)) raw vpc = .calUnknownB unit low raw vpc := by
  have hsel : ∀ b low, decodeCalSel (selOf b ((1 : BitVec 2) ++ low)) 0 0 = .calUnknownB (.ofBit b) low 0 0 := by
    decide +kernel
  rw [decodeCalSel_with, hsel, ofBit_bit]; rfl

theorem decodeCalSel_unknownC (unit : HardwareUnit) (low : BitVec 5) (raw : U16) (vpc : F64) :
    decodeCalSel (selOf unit.bit ((1 : BitVec 3) ++ low)) raw vpc = .calUnknownC unit low raw vpc := by
  have hsel : ∀ b low, decodeCalSel (selOf b ((1 : BitVec 3) ++ low)) 0 0 = .calUnknownC (.ofBit b) low 0 0 := by
    decide +kernel
  rw [decodeCalSel_with, hsel, ofBit_bit]; rfl

theorem decodeCalSel_unknownD (unit : HardwareUnit) (low : BitVec 4) (raw : U16) (vpc : F64) :
    decodeCalSel (selOf unit.bit ((1 : BitVec 4) ++ low)) raw vpc = .calUnknownD unit low raw vpc := by
  have hsel : ∀ b low, decodeCalSel (selOf b ((1 : BitVec 4) ++ low)) 0 0 = .calUnknownD (.ofBit b) low 0 0 := by
    decide +kernel
  rw [decodeCalSel_with, hsel, ofBit_bit]; rfl

-- The command code

/-- What the seven codes decode to (R82): the command, with the operands it reads. -/
theorem decodeHostWord_cases {w : HostWord} {i : Instr} (h : decodeHostWord w = .ok i) :
    (w.op = 0x01 ∧ i = .load w.bytes) ∨ (w.op = 0x02 ∧ i = .restart) ∨ (w.op = 0x03 ∧ i = .step) ∨
    (w.op = 0x04 ∧ i = .next) ∨ (w.op = 0x10 ∧ i = .decodeSci w.frame) ∨ (w.op = 0x11 ∧ i = .decodeHk w.frame) ∨
    (w.op = 0x20 ∧ i = .calibrate w.id w.raw w.vpc w.unit) := by
  unfold decodeHostWord at h
  repeat' split at h
  all_goals cases h <;> simp [*]

theorem decodeHostWord_wf {w : HostWord} {i : Instr} (h : decodeHostWord w = .ok i) : i.wf = true := by
  rcases decodeHostWord_cases h with ⟨_, rfl⟩ | ⟨_, rfl⟩ | ⟨_, rfl⟩ | ⟨_, rfl⟩ | ⟨_, rfl⟩ | ⟨_, rfl⟩ | ⟨_, rfl⟩ <;> rfl

theorem decodeHostWord_reserved {w : HostWord}
    (h : w.op ∉ ([0x01, 0x02, 0x03, 0x04, 0x10, 0x11, 0x20] : List Byte)) :
    decodeHostWord w = .error (.reservedCommand w.op) := by
  simp only [List.mem_cons, List.not_mem_nil, not_or] at h
  simp only [decodeHostWord, h, if_false]

theorem decodeHostWord_named {w : HostWord}
    (h : w.op ∈ ([0x01, 0x02, 0x03, 0x04, 0x10, 0x11, 0x20] : List Byte)) : ∃ i, decodeHostWord w = .ok i := by
  simp only [List.mem_cons, List.not_mem_nil, or_false] at h
  rcases h with hop | hop | hop | hop | hop | hop | hop <;> simp [decodeHostWord, hop]

-- The decoders and the encoder

/-- Settles O3: each row's match value selects that row, and its free bits come back as the row's operands. -/
theorem decodeOfEncodeIsTheInstruction : Obligations.DecodeOfEncodeIsTheInstruction := by
  unfold Obligations.DecodeOfEncodeIsTheInstruction
  intro i hwf
  cases i with
  | nosync win => exact congrArg Except.ok (decodeWindow_of_ne (by simpa [Instr.wf] using hwf))
  | hkFrame f => exact congrArg Except.ok (decodeFrameHk_of_hkt hwf)
  | nonHkFrame f => exact congrArg Except.ok (decodeFrameHk_of_not_hkt (by simpa [Instr.wf] using hwf))
  | calUnknownA unit low raw vpc => exact congrArg Except.ok (decodeCalSel_unknownA unit low raw vpc)
  | calUnknownB unit low raw vpc => exact congrArg Except.ok (decodeCalSel_unknownB unit low raw vpc)
  | calUnknownC unit low raw vpc => exact congrArg Except.ok (decodeCalSel_unknownC unit low raw vpc)
  | calUnknownD unit low raw vpc => exact congrArg Except.ok (decodeCalSel_unknownD unit low raw vpc)
  | sync | sciAnyW1 | calId4U1 | calId4U2 | calId6U1 | calId6U2 | calId8U1 | calId8U2 | load | restart | step | next
  | decodeSci | decodeHk | calibrate => rfl
  | calId0 unit | calId1 unit | calId2 unit | calId3 unit | calId5 unit | calId7 unit | calId9 unit | calId10 unit
  | calId11 unit | calId12 unit | calId13 unit | calId14 unit | calId15 unit => cases unit <;> rfl

theorem decode_wf {e : Encoded} {i : Instr} (h : decode e = .ok i) : i.wf = true := by
  cases e with
  | window w => cases h; exact decodeWindow_wf w
  | frameHk f => cases h; exact decodeFrameHk_wf f
  | frameSci f => cases h; rfl
  | calSel sel raw vpc => cases h; exact decodeCalSel_wf sel raw vpc
  | hostCmd w => exact decodeHostWord_wf h

theorem encode_of_decode {e : Encoded} {i : Instr} (he : ∀ w, e ≠ .hostCmd w) (h : decode e = .ok i) : encode i = e := by
  cases e with
  | window w => cases h; exact encode_decodeWindow w
  | frameHk f => cases h; exact encode_decodeFrameHk f
  | frameSci f => cases h; rfl
  | calSel sel raw vpc => cases h; exact encode_decodeCalSel sel raw vpc
  | hostCmd w => exact absurd rfl (he w)

/-- Settles O4: what a decoder gives keeps every bit of the word, for a host command the ports that it reads. -/
theorem encodeOfDecodeIsTheWord : Obligations.EncodeOfDecodeIsTheWord := by
  unfold Obligations.EncodeOfDecodeIsTheWord
  intro e i hdec
  refine ⟨decode_wf hdec, fun he => encode_of_decode he hdec, ?_⟩
  rintro w rfl
  rcases decodeHostWord_cases hdec with
    ⟨hop, rfl⟩ | ⟨hop, rfl⟩ | ⟨hop, rfl⟩ | ⟨hop, rfl⟩ | ⟨hop, rfl⟩ | ⟨hop, rfl⟩ | ⟨hop, rfl⟩
    <;> exact ⟨_, rfl, by simp [hostWordOf, hop]⟩

/-- Settles O6: the decoders evaluated on the words. -/
theorem wordsOfTheSpecDecode : Obligations.WordsOfTheSpecDecode := by
  unfold Obligations.WordsOfTheSpecDecode
  exact ⟨rfl, rfl, rfl, rfl, rfl, rfl, rfl, rfl⟩

-- The rows of the opcode table

theorem calRows_cover (sel : Sel) (raw : U16) (vpc : F64) :
    ∃ r ∈ calRows, r.mnemonic = mnemonicOf (decodeCalSel sel raw vpc) ∧ r.covers sel.toNat = true := by
  have hrow := Laws.RowMatch.statement (decodeCalSel sel raw vpc) (decodeCalSel_wf sel raw vpc)
  rwa [encode_decodeCalSel] at hrow

theorem w1Rows_cover (f : RawFrame) :
    ∃ r ∈ w1Rows, r.mnemonic = mnemonicOf (decodeFrameHk f) ∧ r.covers (frameW1 f).toNat = true := by
  have hrow := Laws.RowMatch.statement (decodeFrameHk f) (decodeFrameHk_wf f)
  rwa [encode_decodeFrameHk] at hrow

/-- Two rows that share a word agree wherever both masks look. -/
theorem pat_and_mask_eq_of_covers {q r : Row} {word : Nat} (hq : q.covers word = true) (hr : r.covers word = true) :
    q.pat &&& r.mask = r.pat &&& q.mask := by
  simp only [Row.covers, beq_iff_eq] at hq hr
  rw [← hq, ← hr, Nat.and_assoc, Nat.and_assoc, Nat.and_comm q.mask]

/-- Where any two rows disagree on a bit that both masks look at, a word that belongs to a row belongs to no other. -/
theorem exists_only_row {rows : List Row} {word : Nat} {name : String}
    (hdisjoint : ∀ q ∈ rows, ∀ r ∈ rows, q.pat &&& r.mask = r.pat &&& q.mask → q = r)
    (hcover : ∃ r ∈ rows, r.mnemonic = name ∧ r.covers word = true) :
    ∃ r ∈ rows, r.covers word = true ∧ r.mnemonic = name ∧ ∀ q ∈ rows, q.covers word = true → q = r := by
  obtain ⟨r, hr, hname, hword⟩ := hcover
  exact ⟨r, hr, hword, hname, fun q hq hqword => hdisjoint q hq r hr (pat_and_mask_eq_of_covers hqword hword)⟩

/-- Settles O7: the row of the decoded instruction covers the word, and any two rows disagree on a bit of both masks. -/
theorem everySelectorAndKindWordHasOneRow : Obligations.EverySelectorAndKindWordHasOneRow := by
  unfold Obligations.EverySelectorAndKindWordHasOneRow
  exact ⟨fun sel raw vpc => exists_only_row (by decide +kernel) (calRows_cover sel raw vpc),
    fun f => exists_only_row (by decide +kernel) (w1Rows_cover f)⟩

end Sys2Proof.Machine
end

section
/-! SUPPORT. The selected rows: the four operations that decode a word run the row it decodes to (R80, R81, R92, R102), a
field that a decoder ignores does not reach its result (R84), and a word presented to the block is the next to run. -/

namespace Sys2Proof.Machine

-- STEP and the window

theorem scanGuard_eq_row {s : State} (row : State → Scan) (hl : s.loaded = true) (hle : s.cur + 16 ≤ s.len) :
    scanGuard row s = row s := by
  simp [scanGuard, hl, atEnd, Nat.not_lt.2 hle]

/-- Settles O14: past the tests that STEP and the window rows share, STEP's window test is the decoder's. -/
theorem stepRunsTheWindowRow : Obligations.StepRunsTheWindowRow := by
  unfold Obligations.StepRunsTheWindowRow
  intro s bs hl hle hread
  by_cases hw : windowOfBytes bs = marker
  · simp [hw, exec, execStep, execSync, scanStep, scanGuard_eq_row _ hl hle, rowOfWindow, hread]
  · simp [hw, decodeWindow_of_ne hw, exec, execStep, execNosync, scanStep, scanGuard_eq_row _ hl hle, rowOfWindow, hread]

-- The decoders and `W1`

/-- Settles O15: DECODE_HK's kind test is the decoder's, and DECODE_SCI has none. -/
theorem decodersRunTheKindRow : Obligations.DecodersRunTheKindRow := by
  unfold Obligations.DecodersRunTheKindRow
  refine fun s f => ⟨?_, rfl⟩
  cases h : frameHkt f with
  | true => simp [decodeFrameHk_of_hkt h, exec, execDecodeHk, execHkFrame, h]
  | false => simp [decodeFrameHk_of_not_hkt h, exec, execDecodeHk, execNonHkFrame, h]

-- CALIBRATE and the selector

/-- The ids whose high nibble is clear are the sixteen channels of R140. -/
theorem knownId_cases : ∀ id : Byte, id.extractLsb' 4 4 = 0 →
    id = 0 ∨ id = 1 ∨ id = 2 ∨ id = 3 ∨ id = 4 ∨ id = 5 ∨ id = 6 ∨ id = 7 ∨ id = 8 ∨ id = 9 ∨ id = 10 ∨ id = 11 ∨
    id = 12 ∨ id = 13 ∨ id = 14 ∨ id = 15 := by decide +kernel

theorem calibrateResult_unknown {id : Byte} (h : id.extractLsb' 4 4 ≠ 0) (cfg : Config) (raw : U16) (vpc : F64)
    (unit : HardwareUnit) : calibrateResult cfg id raw vpc unit = .unknownChannel := if_pos h

/-- A selector of any other id picks one of the four rows that return UNKNOWN_CHANNEL (R159). -/
theorem exec_decodeCalSel_unknown {id : Byte} (h : id.extractLsb' 4 4 ≠ 0) (b : Bool) (raw : U16) (vpc : F64) (s : State) :
    exec (decodeCalSel (selOf b id) raw vpc) s = .next (complete .unknownChannel s) := by
  have hne : ∀ k : Byte, k.extractLsb' 4 4 = 0 → id ≠ k := fun k hk hid => h (hid ▸ hk)
  simp (disch := decide) only [decodeCalSel, selId_selOf, hne, if_false]
  split
  · rfl
  · split
    · rfl
    · split <;> rfl

/-- Settles O16: an id of a channel by the meaning of its row, any other id by `exec_decodeCalSel_unknown`. -/
theorem calibrateRunsTheSelectedRow : Obligations.CalibrateRunsTheSelectedRow := by
  unfold Obligations.CalibrateRunsTheSelectedRow
  intro s id raw vpc unit
  by_cases h : id.extractLsb' 4 4 = 0
  · rcases knownId_cases id h with
      rfl | rfl | rfl | rfl | rfl | rfl | rfl | rfl | rfl | rfl | rfl | rfl | rfl | rfl | rfl | rfl
      <;> cases unit <;> rfl
  · rw [exec_decodeCalSel_unknown h, exec, execCalibrate, calibrateResult_unknown h]

-- Ignored fields

/-- `CMD` is read within `W1[30:0]`. -/
theorem w1Cmd_eq_low31 (w : U32) : w1Cmd w = (w.extractLsb' 0 31).getLsbD 30 := by
  simp [w1Cmd]

/-- The timestamp is read within `W1[30:0]`. -/
theorem w1Ts_eq_low31 (w : U32) : w1Ts w = ((w.extractLsb' 0 31).extractLsb' 0 30).setWidth 32 := by
  rw [BitVec.extractLsb'_extractLsb'_of_le (by decide)]; rfl

/-- Settles O42: the samples are functions of the fields their decoders read, the kind test one of `W1[31]`. -/
theorem ignoredFieldsChangeNothing : Obligations.IgnoredFieldsChangeNothing := by
  unfold Obligations.IgnoredFieldsChangeNothing
  intro s f g h0 h1 h2 h3
  constructor
  · intro hlow
    have hsample : sciSample s.cfg f = sciSample s.cfg g := by
      simp only [sciSample, w1Cmd_eq_low31, w1Ts_eq_low31, hlow, h0, h1, h2, h3]
    simp only [exec, execDecodeSci, sciReturn, hsample]
  · intro hkt hts
    have hkind : frameHkt f = frameHkt g := hkt
    have hsample : hkSample f = hkSample g := by simp only [hkSample, w1Ts, hts, h0, h1, h2, h3]
    simp only [exec, execDecodeHk, hkReturn, hkind, hsample]

-- Issued operations

/-- An operation issued first is the one that the next step runs, nothing else having changed. -/
theorem step_issueFirst {s : State} {w : HostWord} {i : Instr} (h : decodeHostWord w = .ok i) :
    step (issueFirst s.active w s) = exec i s := by
  have hpick : pick (issueFirst s.active w s) = 0 := by simp [pick]
  rw [step_eq_exec (fetch_eq (r := ⟨s.active, w⟩) (by simp [hpick])) h, hpick]
  rfl

/-- Settles O5: the decoder answers for the seven codes and for no other, and a step refuses what it does not answer for by
recording the fault (`recordFault_spec`). -/
theorem reservedCodesRecordAFaultOnly : Obligations.ReservedCodesRecordAFaultOnly := by
  unfold Obligations.ReservedCodesRecordAFaultOnly
  refine ⟨fun w hop => decodeHostWord_named hop, ?_⟩
  intro s t r hfetch hop
  obtain ⟨why, hmark, hfirst, _⟩ := recordFault_spec .reservedCommand t
  refine ⟨why, ?_, hfirst⟩
  rw [← hmark]
  simp [step, hfetch, decodeHostWord_reserved hop, refuseCommand]

-- Presented words

/-- The bytes of a window word are the bytes the block reads it from (20_memory.md R52). -/
@[simp] theorem windowOfBytes_windowBytes (w : U32) : windowOfBytes (windowBytes w) = w := by
  apply BitVec.eq_of_toNat_eq
  simp only [windowOfBytes, windowBytes, beValue, List.foldl, BitVec.extractLsb'_toNat, BitVec.toNat_ofNat,
    Nat.shiftRight_eq_div_pow]
  omega

@[simp] theorem stageBuffer_active (e : Encoded) (s : State) : (stageBuffer e s).active = s.active := by
  cases e <;> rfl

/-- In a staged buffer STEP meets the window word. -/
theorem exec_step_stageBuffer (w : U32) (s : State) :
    exec .step (stageBuffer (.window w) s) = exec (decodeWindow w) (stageBuffer (.window w) s) := by
  have hread : readBytes (stageBuffer (.window w) s).buf 0 4 = some (windowBytes w) := rfl
  have hrow := stepRunsTheWindowRow (stageBuffer (.window w) s) _ rfl (Nat.le_refl 16) hread
  rwa [windowOfBytes_windowBytes] at hrow

/-- The operation through which the block comes to decode a word acts as the instruction of the word. -/
theorem exec_hostWordFor {e : Encoded} {i : Instr} (h : decode e = .ok i) (s : State) :
    ∃ j, decodeHostWord (hostWordFor e) = .ok j ∧ exec j (stageBuffer e s) = exec i (stageBuffer e s) := by
  cases e with
  | window w => cases h; exact ⟨.step, rfl, exec_step_stageBuffer w s⟩
  | frameHk f => cases h; exact ⟨.decodeHk f, rfl, (decodersRunTheKindRow _ f).1⟩
  | frameSci f => cases h; exact ⟨.decodeSci f, rfl, (decodersRunTheKindRow _ f).2⟩
  | calSel sel raw vpc =>
    cases h
    refine ⟨.calibrate (selId sel) raw vpc (.ofBit (selUnitBit sel)), rfl, ?_⟩
    rw [calibrateRunsTheSelectedRow, bit_ofBit, selOf_parts]
  | hostCmd w => exact ⟨i, h, rfl⟩

theorem decodeTableWord_wf {nbits w : Nat} {i : Instr} (h : decodeTableWord nbits w = some i) : i.wf = true := by
  unfold decodeTableWord at h
  split at h
  · split at h
    · next hdec => cases h; exact decodeHostWord_wf hdec
    · cases h; exact decodeCalSel_wf ..
  · split at h
    · split at h
      · cases h; exact decodeCalSel_wf ..
      · cases h
    · split at h
      · split at h
        · cases h; exact decodeWindow_wf _
        · cases h; exact decodeFrameHk_wf _
      · cases h

/-- Settles O13: the operation issued for the word acts as its instruction (`exec_hostWordFor`, by way of O3, O14, O15 and
O16) and is the one the next step takes. -/
theorem presentedTableWordRunsFirst : Obligations.PresentedTableWordRunsFirst := by
  unfold Obligations.PresentedTableWordRunsFirst
  intro s nbits w i hword
  have hdec := decodeOfEncodeIsTheInstruction i (decodeTableWord_wf hword)
  obtain ⟨j, hissued, hexec⟩ := exec_hostWordFor hdec s
  have hstep := step_issueFirst (s := stageBuffer (encode i) s) hissued
  rw [stageBuffer_active] at hstep
  simp only [State.withFetchWord, presentWord, hword]
  rw [hstep, hexec]

end Sys2Proof.Machine
end

section
/-! SUPPORT. The scanner's operations: LOAD, RESTART, STEP and NEXT with their exact next states, the events a NEXT appends
and where the cursor can move (40_scanner.md R100 to R105, R113). -/

namespace Sys2Proof.Machine

/-- A refused operation answers the state with the mark set, the reason given where it was clear (R185, log 3). -/
theorem next_recordFault (why : FaultReason) (s : State) :
    ∃ m, (Host.Outcome.next (recordFault why s) : Host.Outcome State Fault Refusal) =
        .next { s with faultMark := some m } ∧ (s.faultMark = none → m = why) := by
  obtain ⟨m, hmark, hfirst, _⟩ := recordFault_spec why s
  exact ⟨m, by rw [hmark], hfirst⟩

-- LOAD and RESTART

/-- Settles O17: a buffer that fits is laid out from offset 0, where every byte reads back; a longer one is refused. -/
theorem loadTakesTheBuffer : Obligations.LoadTakesTheBuffer := by
  unfold Obligations.LoadTakesTheBuffer
  refine fun s b => ⟨rfl, fun hle => ?_, fun hlt => ?_⟩
  · have hexec : exec (.load b) s = .next (complete (.okCur 0) (record (.load b.length)
        { s with buf := memoryOf 0 b, len := b.length, loaded := true, cur := 0 })) := if_pos ((lenFits_iff s.cfg b).2 hle)
    exact ⟨memoryOf 0 b, readByte_memoryOf_zero b, hexec⟩
  · have hexec : exec (.load b) s = .next (recordFault .operandRange s) :=
      if_neg fun hfits => Nat.not_lt.2 ((lenFits_iff s.cfg b).1 hfits) hlt
    rw [hexec]
    exact next_recordFault .operandRange s

/-- Settles O18: LOADED decides between the rewound cursor and the fault. -/
theorem restartRewindsTheCursor : Obligations.RestartRewindsTheCursor := by
  unfold Obligations.RestartRewindsTheCursor
  refine ⟨rfl, fun s => ⟨fun hl => ?_, fun hl => ?_⟩⟩
  · exact if_neg (by simp [hl])
  · have hexec : exec .restart s = .next (recordFault .noBuffer s) := if_pos (by simp [hl])
    rw [hexec]
    exact next_recordFault .noBuffer s

-- STEP

theorem exec_step (s : State) : exec .step s = scanFinish s (scanStep s) := rfl

/-- Settles O19: the four ways a STEP of a buffer without holes comes out, each with the state its branch leaves. -/
theorem stepExaminesOnePosition : Obligations.StepExaminesOnePosition := by
  unfold Obligations.StepExaminesOnePosition
  refine ⟨rfl, fun s => ⟨fun hl => ?_, fun hl hend => ?_, fun hl hle bs hread hm => ?_, fun hl hle w hread hm => ?_⟩⟩
  · rw [exec_step, scanStep_noBuffer hl]
    exact next_recordFault .noBuffer s
  · rw [exec_step, scanStep_ended hl hend]
    rfl
  · rw [exec_step, scanStep_emitted hl hle hread hm]
    rfl
  · rw [exec_step, scanStep_skipped hl hle hread hm]
    rfl

-- NEXT

theorem exec_next (s : State) : exec .next s = scanFinish s (scanNext (s.len - 15 - s.cur) s) := rfl

/-- NEXT is its first STEP, where that one does not skip. -/
theorem scanNext_eq_scanStep {s : State} (h : ∀ t, scanStep s ≠ .skipped t) (fuel : Nat) : scanNext fuel s = scanStep s := by
  cases fuel with
  | zero => rfl
  | succ fuel =>
    rw [scanNext]
    split
    · next t hskip => exact absurd hskip (h t)
    all_goals next hstep => exact hstep.symm

/-- NEXT comes to the first position that STEP does not skip, within the positions that NEXT can examine. -/
theorem scanNext_eq_scanStep_skipped {s : State} {n : Nat} (hl : s.loaded = true) (hn : n ≤ s.len - 15 - s.cur)
    (hw : ∀ p, s.cur ≤ p → p < s.cur + n → ∃ w, readBytes s.buf p 4 = some w ∧ w ≠ markerBytes)
    (hstop : ∀ t, scanStep (skipped n s) ≠ .skipped t) :
    scanNext (s.len - 15 - s.cur) s = scanStep (skipped n s) := by
  cases n with
  | zero => rw [skipped_zero] at hstop ⊢; exact scanNext_eq_scanStep hstop _
  | succ n =>
    obtain ⟨fuel, hfuel⟩ := Nat.exists_eq_add_of_le' hn
    rw [hfuel, scanNext_skip (n + 1) fuel s hl (by omega) hw, scanNext_eq_scanStep hstop]

/-- Settles O21: NEXT is the STEP at the first position whose window is the marker, or at the first with fewer than 16 bytes
left, after one Skip for each position before it. -/
theorem nextReturnsTheNextFrameOrEnd : Obligations.NextReturnsTheNextFrameOrEnd := by
  unfold Obligations.NextReturnsTheNextFrameOrEnd
  refine ⟨rfl, fun s => ⟨fun hl => ?_, fun off bs hl hcur hle hw hread hm => ?_, fun hl hw => ?_⟩⟩
  · rw [exec_next, scanNext_eq_scanStep (by simp [scanStep_noBuffer hl]), scanStep_noBuffer hl]
    exact next_recordFault .noBuffer s
  · obtain ⟨n, rfl⟩ := Nat.exists_eq_add_of_le hcur
    have hstep : scanStep (skipped n s) = .emitted (frameOfBytes bs) (scanEmit (frameOfBytes bs) (skipped n s)) :=
      scanStep_emitted hl hle hread hm
    rw [exec_next, scanNext_eq_scanStep_skipped hl (by omega) hw (by simp [hstep]), hstep, Nat.add_sub_cancel_left]
    rfl
  · have hmax : max s.cur (s.len - 15) = s.cur + (s.len - 15 - s.cur) := by omega
    have hstep : scanStep (skipped (s.len - 15 - s.cur) s) = .ended (scanEnd (skipped (s.len - 15 - s.cur) s)) :=
      scanStep_ended hl (by simp only [skipped]; omega)
    rw [exec_next, scanNext_eq_scanStep_skipped hl (Nat.le_refl _) (fun p h1 h2 => hw p h1 (by omega)) (by simp [hstep]),
      hstep, hmax]
    rfl

/-- One STEP of a loaded buffer that answers appends one event (R102). -/
theorem length_hist_of_scanStep {s0 s t : State} (hl : s.loaded = true) (h : scanFinish s0 (scanStep s) = .next t) :
    t.hist.length = s.hist.length + 1 := by
  rcases scanStep_cases s with ⟨hl', _⟩ | ⟨_, _, hs⟩ | ⟨_, _, hs, _⟩ | ⟨bs, _, _, _, _, hs⟩ | ⟨w, _, _, _, _, hs⟩
  · rw [hl] at hl'; cases hl'
  all_goals rw [hs] at h; cases h
  all_goals simp

/-- Settles O22: a NEXT skips `n` positions and makes one STEP more, and `n` is within the fuel. -/
theorem nextMakesBoundedlyManySteps : Obligations.NextMakesBoundedlyManySteps := by
  unfold Obligations.NextMakesBoundedlyManySteps
  intro s t hl hexec
  obtain ⟨n, hn, -, hscan, -, -⟩ := scanNext_cases _ s hl rfl
  rw [exec_next, hscan] at hexec
  have hlen : t.hist.length = s.hist.length + n + 1 := by
    simpa [skipped] using length_hist_of_scanStep (s := skipped n s) hl hexec
  constructor <;> omega

-- The cursor

/-- Settles O24: of every effect but LOAD's and RESTART's, the cursor stays or moves forward. -/
theorem cursorNeverMovesBack : Obligations.CursorNeverMovesBack := by
  unfold Obligations.CursorNeverMovesBack
  intro i s t hexec hload hrestart
  cases exec_effect hexec with
  | returned => exact Nat.le_refl _
  | scanned _ hrun =>
    obtain ⟨c, es, rfl, hle, -⟩ := hrun.frame
    exact hle
  | syncRow | nosyncRow => exact Nat.le_add_right ..
  | loaded | loadRefused => exact absurd rfl (hload _)
  | restarted => exact absurd rfl hrestart
  | noBuffer => simp

end Sys2Proof.Machine
end

section
/-! SUPPORT. Emitted frames: within one scan they do not overlap, and each is the 16 bytes of BUF at a marker
(40_scanner.md R106, R107). -/

namespace Sys2Proof.Machine

-- The history read back

theorem replayFrom_singleton (p : ScanPos) (e : Event) : replayFrom p [e] = replayEvent p e := by
  cases h : replayEvent p e <;> simp [replayFrom, h]

theorem replayFrom_cons_iff {p r : ScanPos} {e : Event} {es : List Event} :
    replayFrom p (e :: es) = some r ↔ ∃ q, replayEvent p e = some q ∧ replayFrom q es = some r := by
  cases h : replayEvent p e <;> simp [replayFrom, h]

theorem replayFrom_append_iff {p r : ScanPos} {xs ys : List Event} :
    replayFrom p (xs ++ ys) = some r ↔ ∃ q, replayFrom p xs = some q ∧ replayFrom q ys = some r := by
  induction xs generalizing p with
  | nil => simp [replayFrom]
  | cons x xs ih =>
    simp only [List.cons_append, replayFrom_cons_iff, ih]
    constructor
    · rintro ⟨q, hx, q', hxs, hys⟩
      exact ⟨q', ⟨q, hx, hxs⟩, hys⟩
    · rintro ⟨q', ⟨q, hx, hxs⟩, hys⟩
      exact ⟨q, hx, q', hxs, hys⟩

/-- A preorder of positions that every event of a history respects relates the ends of the history. -/
theorem replayFrom_rel {R : ScanPos → ScanPos → Prop} (hrefl : ∀ p, R p p) (htrans : ∀ p q r, R p q → R q r → R p r)
    {es : List Event} (hevent : ∀ e ∈ es, ∀ p q, replayEvent p e = some q → R p q) {p r : ScanPos}
    (h : replayFrom p es = some r) : R p r := by
  induction es generalizing p with
  | nil => cases h; exact hrefl _
  | cons e es ih =>
    obtain ⟨q, he, hes⟩ := replayFrom_cons_iff.1 h
    exact htrans _ _ _ (hevent e List.mem_cons_self _ _ he) (ih (fun x hx => hevent x (List.mem_cons_of_mem e hx)) hes)

theorem replayEvent_emit {p q : ScanPos} {off : Nat} {f : RawFrame} (h : replayEvent p (.emit off f) = some q) :
    off = p.cur ∧ off + 16 ≤ p.len ∧ q = { p with cur := off + 16 } := by
  simp only [replayEvent] at h
  split at h
  · next hguard =>
    obtain ⟨-, hoff, hle, -⟩ := hguard
    cases h
    exact ⟨hoff, hle, rfl⟩
  · cases h

theorem replayEvent_cur_le {p q : ScanPos} {e : Event} (he : startsScan e = false) (h : replayEvent p e = some q) :
    p.cur ≤ q.cur := by
  cases e with
  | load | restart => cases he
  | emit off f =>
    obtain ⟨hoff, -, rfl⟩ := replayEvent_emit h
    simp only [hoff]
    omega
  | skip off =>
    simp only [replayEvent] at h
    split at h
    · cases h; simp only; omega
    · cases h
  | ended off =>
    simp only [replayEvent] at h
    split at h
    · cases h; exact Nat.le_refl _
    · cases h

theorem replayEvent_len {p q : ScanPos} {e : Event} (he : ∀ n, e ≠ .load n) (h : replayEvent p e = some q) :
    q.len = p.len := by
  cases e with
  | load n => exact absurd rfl (he n)
  | restart | emit | skip | ended =>
    simp only [replayEvent] at h
    split at h
    · cases h; rfl
    · cases h

/-- Settles O29: an Emit leaves the cursor 16 bytes on, no event within the scan moves it back, and the next Emit stands at
the cursor of its time, with 16 bytes left there. -/
theorem emittedFramesNeverOverlap : Obligations.EmittedFramesNeverOverlap := by
  unfold Obligations.EmittedFramesNeverOverlap
  intro s pre mid post o1 o2 f1 f2 hexp hhist hmid
  rw [HistExplains, hhist] at hexp
  simp only [replayFrom_append_iff, replayFrom_singleton] at hexp
  obtain ⟨p2, ⟨q1, ⟨p1, ⟨_, _, hemit1⟩, hmidrun⟩, hemit2⟩, hpostrun⟩ := hexp
  obtain ⟨-, -, rfl⟩ := replayEvent_emit hemit1
  obtain ⟨hoff, hle, rfl⟩ := replayEvent_emit hemit2
  have hcur : o1 + 16 ≤ q1.cur :=
    replayFrom_rel (R := fun p q => p.cur ≤ q.cur) (fun _ => Nat.le_refl _) (fun _ _ _ => Nat.le_trans)
      (fun e he _ _ => replayEvent_cur_le (hmid e he)) hmidrun
  refine ⟨hoff ▸ hcur, fun hnoload => ?_⟩
  have hlen : s.len = q1.len :=
    replayFrom_rel (R := fun p q => q.len = p.len) (fun _ => rfl) (fun _ _ _ hpq hqr => hqr.trans hpq)
      (fun e he _ _ => replayEvent_len (hnoload e he)) hpostrun
  exact hlen ▸ hle

-- The frame of an EMITTED result

/-- The frame that a run of the scanner ends with is the 16 bytes of BUF before the new cursor, the marker first. -/
theorem ScanRun.emitted_frame {s t : State} {f : RawFrame} {c : Nat} (h : ScanRun s (.emitted f c) t) :
    c = t.cur ∧ s.cur + 16 ≤ c ∧ c ≤ s.len ∧
      ∃ bs, readBytes s.buf (c - 16) 16 = some bs ∧ bs.take 4 = markerBytes ∧ f = frameOfBytes bs := by
  generalize hr : Result.emitted f c = r at h
  induction h with
  | ended | skipped => cases hr
  | @emitted s bs _ hle hread hm =>
    cases hr
    exact ⟨rfl, Nat.le_refl _, hle, bs, hread, hm, rfl⟩
  | skipThen _ _ _ _ _ ih =>
    obtain ⟨hcur, hlo, hhi, hframe⟩ := ih hr
    exact ⟨hcur, by simp only [scanSkip_cur] at hlo; omega, hhi, hframe⟩

theorem calibrateResult_ne_emitted (cfg : Config) (id : Byte) (raw : U16) (vpc : F64) (unit : HardwareUnit) (f : RawFrame)
    (c : Nat) : calibrateResult cfg id raw vpc unit ≠ .emitted f c := by
  unfold calibrateResult
  repeat' split
  all_goals simp

/-- The result that an operation returned is the one that was appended, whatever its tag. -/
theorem result_eq_of_results {r r' : Result} {s t : State} {tag : Nat} (hkept : t.results = s.results)
    (h : (complete r t).results = s.results ++ [⟨tag, r'⟩]) : r = r' := by
  simp only [complete_results, hkept, List.append_cancel_left_eq, List.cons.injEq, Completion.mk.injEq] at h
  exact h.1.2

theorem complete_inj {r r' : Result} {s : State} (h : complete r s = complete r' s) : r = r' :=
  result_eq_of_results rfl (congrArg State.results h)

theorem ScanRun.results {s t : State} {r : Result} (h : ScanRun s r t) : t.results = s.results := by
  obtain ⟨_, _, rfl, -, -⟩ := h.frame
  rfl

/-- No stateless lane returns a frame (R181). -/
theorem exec_lane_ne_emitted {i : Instr} {s : State} {f : RawFrame} {c : Nat} (hlane : readsOf i ≠ .scanner) :
    exec i s ≠ .next (complete (.emitted f c) s) := by
  intro h
  cases i with
  | sync | nosync | load | restart | step | next => exact hlane rfl
  | calibrate id raw vpc unit =>
    exact calibrateResult_ne_emitted s.cfg id raw vpc unit f c (complete_inj (Host.Outcome.next.inj h))
  | decodeHk g =>
    simp only [exec, execDecodeHk] at h
    split at h
    · cases complete_inj (Host.Outcome.next.inj h)
    · cases complete_inj (Host.Outcome.next.inj h)
  | _ => cases complete_inj (Host.Outcome.next.inj h)

/-- An instruction other than the row SYNC that returns a frame has run the scanner to it (the row SYNC on its own does not
look at the window, log 12). -/
theorem exec_emitted {i : Instr} {s t : State} {tag c : Nat} {f : RawFrame} (hi : i ≠ .sync) (hexec : exec i s = .next t)
    (hres : t.results = s.results ++ [⟨tag, .emitted f c⟩]) : ∃ u, ScanRun s (.emitted f c) u ∧ u.cur = t.cur := by
  cases exec_effect hexec with
  | returned r hlane =>
    cases result_eq_of_results rfl hres
    exact absurd hexec (exec_lane_ne_emitted hlane)
  | scanned _ hrun =>
    cases result_eq_of_results hrun.results hres
    exact ⟨_, hrun, rfl⟩
  | syncRow => exact absurd rfl hi
  | nosyncRow | loaded | restarted | loadRefused | noBuffer => simp at hres

/-- Settles O30: the operation a step takes returns a frame only by a run of the scanner, which reads it at the marker. -/
theorem emittedFramesBeginWithTheMarker : Obligations.EmittedFramesBeginWithTheMarker := by
  unfold Obligations.EmittedFramesBeginWithTheMarker
  intro s t tag c f hstep hres
  unfold step at hstep
  split at hstep
  · cases hstep; simp at hres
  · next req s' hfetch =>
    obtain ⟨inbox, order, rfl⟩ := fetch_eq_some hfetch
    split at hstep
    · next i hdec =>
      obtain ⟨u, hrun, hu⟩ := exec_emitted (decodeHostWord_ne_sync hdec) hstep hres
      obtain ⟨hcur, hlo, hhi, bs, hread, hm, rfl⟩ := hrun.emitted_frame
      have hlen := ((readBytes_eq_some_iff _ _ _ _).1 hread).1
      exact ⟨frameW0_eq_marker hlen hm, hcur.trans hu, Nat.le_trans (Nat.le_add_left ..) hlo, hhi, bs, hread, rfl⟩
    · cases hstep; simp [refuseCommand] at hres

end Sys2Proof.Machine
end

section
/-! SUPPORT. The scan of a byte sequence: the fuel of `scanFrom` does not show, payload bytes do not move frames, and RESTART
with SCANALL returns it (40_scanner.md R104, R109, R110). -/

namespace Sys2Proof.Machine

-- The recursive function

/-- `scanFrom(B, c)` with the fuel that reaches the end from every offset. -/
def scanAt (B : List Byte) (c : Nat) : List (Nat × RawFrame) := scanFrom B (B.length + 1) c

theorem scanBuffer_eq_scanAt (B : List Byte) : scanBuffer B = scanAt B 0 := rfl

theorem scanFrom_end {B : List Byte} {c : Nat} (h : B.length < c + 16) (fuel : Nat) : scanFrom B fuel c = [] := by
  cases fuel with
  | zero => rfl
  | succ fuel => simp [scanFrom, h]

theorem scanFrom_marker {B : List Byte} {c : Nat} (hle : c + 16 ≤ B.length) (hm : (B.drop c).take 4 = markerBytes)
    (fuel : Nat) :
    scanFrom B (fuel + 1) c = (c, frameOfBytes ((B.drop c).take 16)) :: scanFrom B fuel (c + 16) := by
  simp [scanFrom, Nat.not_lt.2 hle, hm]

theorem scanFrom_skip {B : List Byte} {c : Nat} (hle : c + 16 ≤ B.length) (hm : (B.drop c).take 4 ≠ markerBytes)
    (fuel : Nat) : scanFrom B (fuel + 1) c = scanFrom B fuel (c + 1) := by
  simp [scanFrom, Nat.not_lt.2 hle, hm]

/-- More fuel than reaches the end changes nothing. -/
theorem scanFrom_succ {B : List Byte} {c fuel : Nat} (h : B.length < c + fuel) :
    scanFrom B (fuel + 1) c = scanFrom B fuel c := by
  induction fuel generalizing c with
  | zero => rw [scanFrom_end (by omega), scanFrom_end (by omega)]
  | succ fuel ih =>
    by_cases hend : B.length < c + 16
    · rw [scanFrom_end hend, scanFrom_end hend]
    · have hle : c + 16 ≤ B.length := Nat.not_lt.1 hend
      by_cases hm : (B.drop c).take 4 = markerBytes
      · rw [scanFrom_marker hle hm, scanFrom_marker hle hm, ih (by omega)]
      · rw [scanFrom_skip hle hm, scanFrom_skip hle hm, ih (by omega)]

theorem scanAt_marker {B : List Byte} {c : Nat} (hle : c + 16 ≤ B.length) (hm : (B.drop c).take 4 = markerBytes) :
    scanAt B c = (c, frameOfBytes ((B.drop c).take 16)) :: scanAt B (c + 16) := by
  rw [scanAt, scanFrom_marker hle hm, scanAt, scanFrom_succ (by omega)]

theorem scanAt_skip {B : List Byte} {c : Nat} (hle : c + 16 ≤ B.length) (hm : (B.drop c).take 4 ≠ markerBytes) :
    scanAt B c = scanAt B (c + 1) := by
  rw [scanAt, scanFrom_skip hle hm, scanAt, scanFrom_succ (by omega)]

-- Payload bytes

theorem le_of_mem_scanFrom {B : List Byte} {fuel c : Nat} {pf : Nat × RawFrame} (h : pf ∈ scanFrom B fuel c) :
    c ≤ pf.1 := by
  induction fuel generalizing c with
  | zero => cases h
  | succ fuel ih =>
    rw [scanFrom] at h
    split at h
    · cases h
    · split at h
      · rcases List.mem_cons.1 h with rfl | hrest
        · exact Nat.le_refl _
        · exact Nat.le_trans (Nat.le_add_right ..) (ih hrest)
      · exact Nat.le_trans (Nat.le_succ c) (ih h)

/-- An offset at which stands a byte of a frame of the list, after the frame's marker (R110). -/
def InPayload (frames : List (Nat × RawFrame)) (k : Nat) : Prop :=
  ∃ p f, (p, f) ∈ frames ∧ p + 4 ≤ k ∧ k < p + 16

/-- The window at which a scan begins is no payload of it. -/
theorem not_inPayload_scanFrom {B : List Byte} {fuel c k : Nat} (hk : k < c + 4) : ¬ InPayload (scanFrom B fuel c) k := by
  rintro ⟨p, f, hmem, hlo, -⟩
  have hc : c ≤ p := le_of_mem_scanFrom hmem
  omega

theorem take_drop_eq_of_getElem? {B C : List Byte} {c n : Nat} (h : ∀ k, c ≤ k → k < c + n → C[k]? = B[k]?) :
    (C.drop c).take n = (B.drop c).take n := by
  refine List.ext_getElem? fun j => ?_
  by_cases hj : j < n
  · simpa [List.getElem?_take_of_lt hj] using h (c + j) (Nat.le_add_right ..) (by omega)
  · rw [List.getElem?_take, List.getElem?_take, if_neg hj, if_neg hj]

/-- A frame of a scan with the bytes that another sequence holds at its offset. -/
def frameIn (C : List Byte) (pf : Nat × RawFrame) : Nat × RawFrame := (pf.1, frameOfBytes ((C.drop pf.1).take 16))

/-- A sequence that agrees from an offset on, but for payload bytes of the frames met there, has the same scan from there, by
offsets: each window the scan examines is the same. -/
theorem scanFrom_eq_map_frameIn {B C : List Byte} (hlen : C.length = B.length) (fuel c : Nat)
    (hsame : ∀ k, c ≤ k → ¬ InPayload (scanFrom B fuel c) k → C[k]? = B[k]?) :
    scanFrom C fuel c = (scanFrom B fuel c).map (frameIn C) := by
  induction fuel generalizing c with
  | zero => rfl
  | succ fuel ih =>
    by_cases hend : B.length < c + 16
    · rw [scanFrom_end hend, scanFrom_end (hlen ▸ hend)]
      rfl
    · have hle : c + 16 ≤ B.length := Nat.not_lt.1 hend
      have hwindow : (C.drop c).take 4 = (B.drop c).take 4 :=
        take_drop_eq_of_getElem? fun k hlo hhi => hsame k hlo (not_inPayload_scanFrom hhi)
      by_cases hm : (B.drop c).take 4 = markerBytes
      · rw [scanFrom_marker hle hm] at hsame ⊢
        rw [scanFrom_marker (hlen ▸ hle) (hwindow.trans hm), ih (c + 16) fun k hk hout => ?_]
        · rfl
        · refine hsame k (by omega) ?_
          rintro ⟨p, f, hmem, hlo, hhi⟩
          rcases List.mem_cons.1 hmem with heq | hrest
          · cases heq
            omega
          · exact hout ⟨p, f, hrest, hlo, hhi⟩
      · rw [scanFrom_skip hle hm] at hsame ⊢
        rw [scanFrom_skip (hlen ▸ hle) (hwindow ▸ hm)]
        exact ih (c + 1) fun k hk => hsame k (by omega)

/-- Settles O32: the two scans go over the same windows from offset 0 on. -/
theorem payloadBytesDoNotMoveFrames : Obligations.PayloadBytesDoNotMoveFrames := by
  unfold Obligations.PayloadBytesDoNotMoveFrames
  intro B C hlen hsame
  rw [scanBuffer, hlen]
  exact scanFrom_eq_map_frameIn hlen (B.length + 1) 0 fun k _ hout =>
    hsame k fun p f hmem hin => hout ⟨p, f, hmem, hin⟩

-- The scanner and the recursive function

/-- A read within a buffer's bytes is that part of them. -/
theorem readBytes_of_readBytes_zero {m : Memory} {n off k : Nat} {B : List Byte} (hB : readBytes m 0 n = some B)
    (hle : off + k ≤ n) : readBytes m off k = some ((B.drop off).take k) := by
  obtain ⟨hlen, hbyte⟩ := (readBytes_eq_some_iff m 0 n B).1 hB
  refine (readBytes_eq_some_iff m off k _).2 ⟨by rw [List.length_take, List.length_drop]; omega, fun j hj => ?_⟩
  have hj' := hbyte (off + j) (by omega)
  rw [List.getElem?_take_of_lt hj, List.getElem?_drop, ← hj', Nat.zero_add]

section
variable {m : Memory} {n c : Nat} {B : List Byte} (hB : readBytes m 0 n = some B) (hle : c + 16 ≤ n)
include hB hle

theorem scanAt_of_read_marker {bs : List Byte} (hread : readBytes m c 16 = some bs) (hm : bs.take 4 = markerBytes) :
    scanAt B c = (c, frameOfBytes bs) :: scanAt B (c + 16) := by
  have hlen := ((readBytes_eq_some_iff m 0 n B).1 hB).1
  obtain rfl : (B.drop c).take 16 = bs := Option.some.inj ((readBytes_of_readBytes_zero hB hle).symm.trans hread)
  rw [List.take_take] at hm
  exact scanAt_marker (hlen ▸ hle) hm

theorem scanAt_of_read_skip {w : List Byte} (hread : readBytes m c 4 = some w) (hm : w ≠ markerBytes) :
    scanAt B c = scanAt B (c + 1) := by
  have hlen := ((readBytes_eq_some_iff m 0 n B).1 hB).1
  obtain rfl : (B.drop c).take 4 = w := Option.some.inj ((readBytes_of_readBytes_zero hB (by omega)).symm.trans hread)
  exact scanAt_skip (hlen ▸ hle) hm

end

/-- What is left of the scan of `B` at a result of the scanner, the result's own frame included (R109). -/
def scanAfter (B : List Byte) : Result → List (Nat × RawFrame)
  | .emitted f cur => (cur - 16, f) :: scanAt B cur
  | .skipped cur => scanAt B cur
  | _ => []

/-- The scanner goes over a buffer as the recursive function goes over its bytes. -/
theorem ScanRun.scanAt_eq {s t : State} {r : Result} {B : List Byte} (h : ScanRun s r t)
    (hB : readBytes s.buf 0 s.len = some B) : scanAt B s.cur = scanAfter B r := by
  induction h with
  | ended _ hend => exact scanFrom_end (((readBytes_eq_some_iff _ _ _ _).1 hB).1 ▸ hend) _
  | emitted _ hle hread hm => rw [scanAt_of_read_marker hB hle hread hm, scanAfter, Nat.add_sub_cancel]
  | skipped _ hle hread hm => exact scanAt_of_read_skip hB hle hread hm
  | skipThen _ hle hread hm _ ih => exact (scanAt_of_read_skip hB hle hread hm).trans (ih hB)

-- SCANALL

theorem ScanRun.ended_at {s t : State} {c : Nat} (h : ScanRun s (.ended c) t) : s.len < t.cur + 16 := by
  generalize hr : Result.ended c = r at h
  induction h with
  | ended _ hend => exact hend
  | emitted | skipped => cases hr
  | skipThen _ _ _ _ _ ih => exact ih hr

/-- NEXT of a loaded buffer that keeps the invariant runs the scanner to a frame or to the end; SKIPPED is never returned
(R103). -/
theorem exec_next_of_bufInv {s : State} (hinv : BufInv s) (hl : s.loaded = true) :
    (∃ f c t, exec .next s = .next (complete (.emitted f c) t) ∧ ScanRun s (.emitted f c) t) ∨
    ∃ c t, exec .next s = .next (complete (.ended c) t) ∧ ScanRun s (.ended c) t := by
  obtain ⟨n, -, -, hscan, hstop, -⟩ := scanNext_cases _ s hl rfl
  have hfrom := scanNext_from (s.len - 15 - s.cur) s
  rw [exec_next]
  cases h : scanNext (s.len - 15 - s.cur) s with
  | noBuffer => rw [h, Scan.From, hl] at hfrom; cases hfrom
  | hole off => exact absurd (scanNext_hole h) (hinv.not_holeAt off)
  | emitted f t => rw [h] at hfrom; exact .inl ⟨f, t.cur, t, rfl, hfrom⟩
  | skipped t => exact absurd (hscan.symm.trans h) (hstop t)
  | ended t => rw [h] at hfrom; exact .inr ⟨t.cur, t, rfl, hfrom⟩

theorem hostIssue_next (s : State) : hostIssue (hostWordOf 0x04) s = exec .next s := step_issueFirst rfl

theorem answered_complete {s t : State} (hkept : t.results = s.results) (r : Result) :
    answered s (complete r t) = some r := by
  simp [answered, hkept]

theorem scanAllFrom_emitted {s t : State} {f : RawFrame} {c : Nat}
    (hnext : exec .next s = .next (complete (.emitted f c) t)) (hkept : t.results = s.results) (fuel : Nat) :
    scanAllFrom (fuel + 1) s =
      andThen (scanAllFrom fuel (complete (.emitted f c) t)) fun r => .next (f :: r.1, r.2) := by
  rw [scanAllFrom, hostIssue_next, hnext, andThen]
  simp only [answered_complete hkept]

theorem scanAllFrom_ended {s t : State} {c : Nat} (hnext : exec .next s = .next (complete (.ended c) t))
    (hkept : t.results = s.results) (fuel : Nat) :
    scanAllFrom (fuel + 1) s = .next ([], complete (.ended c) t) := by
  rw [scanAllFrom, hostIssue_next, hnext, andThen]
  simp only [answered_complete hkept]

/-- Where SCANALL leaves a buffer: nothing but CUR, HIST and the results has changed, and fewer than 16 bytes remain. -/
structure ScannedToEnd (s u : State) : Prop where
  frame : u = { s with cur := u.cur, hist := u.hist, results := u.results }
  curLe : u.cur ≤ s.len
  atEnd : s.len < u.cur + 16

/-- What follows a run of the scanner from its next state follows it from its first. -/
theorem ScannedToEnd.of_scanRun {s t u : State} {r : Result} (hrun : ScanRun s r t) (h : ScannedToEnd (complete r t) u) :
    ScannedToEnd s u := by
  obtain ⟨_, _, rfl, -, -⟩ := hrun.frame
  exact ⟨h.frame, h.curLe, h.atEnd⟩

theorem ScanRun.scannedToEnd {s t : State} {c : Nat} (hrun : ScanRun s (.ended c) t) (hcur : s.cur ≤ s.len) :
    ScannedToEnd s (complete (.ended c) t) := by
  have hend := hrun.ended_at
  obtain ⟨_, _, rfl, -, hle⟩ := hrun.frame
  exact ⟨rfl, Nat.le_trans hle (Nat.max_le.2 ⟨hcur, Nat.le_refl _⟩), hend⟩

/-- As many NEXTs as there can be frames, and one more, return the scan of the bytes from the cursor on: each NEXT that
returns a frame moves the cursor 16 bytes or more. -/
theorem scanAllFrom_eq_scanAt (fuel : Nat) {s : State} {B : List Byte} (hinv : BufInv s) (hl : s.loaded = true)
    (hB : readBytes s.buf 0 s.len = some B) (hfuel : s.len < s.cur + 16 * fuel) :
    ∃ u, scanAllFrom fuel s = .next ((scanAt B s.cur).map Prod.snd, u) ∧ ScannedToEnd s u := by
  induction fuel generalizing s with
  | zero => exact absurd (hinv.curLe hl) (by omega)
  | succ fuel ih =>
    rcases exec_next_of_bufInv hinv hl with ⟨f, c, t, hnext, hrun⟩ | ⟨c, t, hnext, hrun⟩
    · have hinv' : BufInv (complete (.emitted f c) t) := exec_keeps_bufInv hinv hnext
      obtain ⟨hcur, hlo, -, -⟩ := hrun.emitted_frame
      obtain ⟨cur, es, rfl, -, -⟩ := hrun.frame
      obtain rfl : c = cur := hcur
      obtain ⟨u, hrest, hend⟩ := ih hinv' hl hB (by simp only [complete_len, complete_cur]; omega)
      refine ⟨u, ?_, hend.of_scanRun hrun⟩
      rw [scanAllFrom_emitted hnext hrun.results, hrest, hrun.scanAt_eq hB]
      rfl
    · refine ⟨complete (.ended c) t, ?_, hrun.scannedToEnd (hinv.curLe hl)⟩
      rw [scanAllFrom_ended hnext hrun.results, hrun.scanAt_eq hB]
      rfl

/-- Settles O31: RESTART keeps the buffer and its invariant, and from offset 0 `LEN / 16 + 2` NEXTs are enough. -/
theorem restartScanallReturnsTheScanOfTheBuffer : Obligations.RestartScanallReturnsTheScanOfTheBuffer := by
  unfold Obligations.RestartScanallReturnsTheScanOfTheBuffer
  intro s B hinv hl hB
  rw [scanBuffer_eq_scanAt]
  have hrestart := (restartRewindsTheCursor.2 s).1 hl
  have hinv' := exec_keeps_bufInv hinv hrestart
  obtain ⟨u, hscan, hend⟩ := scanAllFrom_eq_scanAt (s.len / 16 + 2) hinv' hl hB (by simp only; omega)
  exact ⟨_, u, hrestart, hscan, hend.frame, hend.curLe, hend.atEnd⟩

end Sys2Proof.Machine
end

section
/-! SUPPORT. The parsers and the lanes: what a lane operation returns and what that depends on (R120 to R124, R162, R163),
and the way back from ENC_SCI (R127). -/

namespace Sys2Proof.Machine

-- What a lane operation reads

/-- A configuration with the evaluation and the constants given; its other fields reach no result of CALIBRATE. -/
def laneConfig (ev : FpEval) (k : KCal) : Config := { addrW := 0, fullScaleSci := 0, vpcHk := 0, kcal := k, fpEval := ev }

theorem calibrateResult_laneConfig (cfg : Config) (id : Byte) (raw : U16) (vpc : F64) (unit : HardwareUnit) :
    calibrateResult (laneConfig cfg.fpEval cfg.kcal) id raw vpc unit = calibrateResult cfg id raw vpc unit := rfl

/-- The science sample of a frame at a volts-per-count. -/
def sciSampleAt (ev : FpEval) (vpc : F64) (f : RawFrame) : ScienceSample where
  isCommanded := w1Cmd (frameW1 f)
  timestamp := w1Ts (frameW1 f)
  channel1 := evalScaled (laneConfig ev kcalSource) (frameH0 f) vpc
  channel2 := evalScaled (laneConfig ev kcalSource) (frameH1 f) vpc
  channel3 := evalScaled (laneConfig ev kcalSource) (frameH2 f) vpc
  channel4 := evalScaled (laneConfig ev kcalSource) (frameH3 f) vpc

theorem sciSample_eq_sciSampleAt (cfg : Config) (f : RawFrame) :
    sciSample cfg f = sciSampleAt cfg.fpEval (vpcSci cfg) f := rfl

/-- What DECODE_HK returns of a frame (R121). -/
def hkResult (f : RawFrame) : Result := if frameHkt f then .okHk (hkSample f) else .noSample

theorem hkResult_of_hkt {f : RawFrame} (h : frameHkt f = true) : hkResult f = .okHk (hkSample f) := if_pos h

theorem hkResult_of_not_hkt {f : RawFrame} (h : frameHkt f = false) : hkResult f = .noSample := by
  rw [hkResult, h]
  rfl

theorem exec_decodeHk (f : RawFrame) (s : State) : exec (.decodeHk f) s = .next (complete (hkResult f) s) := by
  cases h : frameHkt f with
  | true => rw [hkResult_of_hkt h, exec, execDecodeHk, if_pos h, hkReturn]
  | false =>
    rw [hkResult_of_not_hkt h, exec, execDecodeHk, h]
    rfl

theorem exec_reads_nothing {i : Instr} (h : readsOf i = .nothing) :
    ∃ r, ∀ s, exec i s = .next (complete r s) := by
  cases i with
  | decodeHk f => exact ⟨hkResult f, exec_decodeHk f⟩
  | hkFrame | nonHkFrame | calId11 | calId12 | calId13 | calUnknownA | calUnknownB | calUnknownC | calUnknownD =>
    exact ⟨_, fun _ => rfl⟩
  | _ => cases h

theorem exec_reads_vpcSci {i : Instr} (h : readsOf i = .vpcSci) :
    ∃ f, ∀ s, exec i s = .next (complete (.okSci (sciSample s.cfg f)) s) := by
  cases i with
  | decodeSci f | sciAnyW1 f => exact ⟨f, fun _ => rfl⟩
  | _ => cases h

/-- Each row that reads `KCAL` is CALIBRATE of its id, its unit and its operands. -/
theorem exec_reads_kcal {i : Instr} (h : readsOf i = .kcal) :
    ∃ id raw vpc unit, ∀ s, exec i s = .next (complete (calibrateResult s.cfg id raw vpc unit) s) := by
  cases i with
  | calId0 unit raw vpc => exact ⟨0, raw, vpc, unit, fun _ => rfl⟩
  | calId1 unit raw vpc => exact ⟨1, raw, vpc, unit, fun _ => rfl⟩
  | calId2 unit raw vpc => exact ⟨2, raw, vpc, unit, fun _ => rfl⟩
  | calId3 unit raw vpc => exact ⟨3, raw, vpc, unit, fun _ => rfl⟩
  | calId4U1 raw vpc => exact ⟨4, raw, vpc, .unit1, fun _ => rfl⟩
  | calId4U2 raw vpc => exact ⟨4, raw, vpc, .unit2, fun _ => rfl⟩
  | calId5 unit raw vpc => exact ⟨5, raw, vpc, unit, fun _ => rfl⟩
  | calId6U1 raw vpc => exact ⟨6, raw, vpc, .unit1, fun _ => rfl⟩
  | calId6U2 raw vpc => exact ⟨6, raw, vpc, .unit2, fun _ => rfl⟩
  | calId7 unit raw vpc => exact ⟨7, raw, vpc, unit, fun _ => rfl⟩
  | calId8U1 raw vpc => exact ⟨8, raw, vpc, .unit1, fun _ => rfl⟩
  | calId8U2 raw vpc => exact ⟨8, raw, vpc, .unit2, fun _ => rfl⟩
  | calId9 unit raw vpc => exact ⟨9, raw, vpc, unit, fun _ => rfl⟩
  | calId10 unit raw vpc => exact ⟨10, raw, vpc, unit, fun _ => rfl⟩
  | calId14 unit raw vpc => exact ⟨14, raw, vpc, unit, fun _ => rfl⟩
  | calId15 unit raw vpc => exact ⟨15, raw, vpc, unit, fun _ => rfl⟩
  | calibrate id raw vpc unit => exact ⟨id, raw, vpc, unit, fun _ => rfl⟩
  | _ => cases h

/-- Settles O39: the result is `hkResult` or fixed, the science sample at `VPC_SCI`, or CALIBRATE's, which of the
configuration reads the evaluation and `KCAL` alone. -/
theorem laneOperationsOnlyReturn : Obligations.LaneOperationsOnlyReturn := by
  unfold Obligations.LaneOperationsOnlyReturn
  refine fun i => ⟨exec_reads_nothing, fun h => ?_, fun h => ?_⟩
  · obtain ⟨f, hexec⟩ := exec_reads_vpcSci h
    simp only [sciSample_eq_sciSampleAt] at hexec
    exact ⟨fun ev vpc => .okSci (sciSampleAt ev vpc f), hexec⟩
  · obtain ⟨id, raw, vpc, unit, hexec⟩ := exec_reads_kcal h
    refine ⟨fun ev k => calibrateResult (laneConfig ev k) id raw vpc unit, fun s => ?_⟩
    simp only [calibrateResult_laneConfig]
    exact hexec s

-- DECODE_HK

theorem hkSample_hkId_high (f : RawFrame) : (hkSample f).hkId.extractLsb' 4 4 = 0 := by
  have hhigh : ∀ id : BitVec 4, (id.setWidth 8).extractLsb' 4 4 = 0 := by decide
  exact hhigh _

theorem hkSample_hkId_lt (f : RawFrame) : (hkSample f).hkId.toNat < 16 := by
  have hlt : ∀ id : BitVec 4, (id.setWidth 8).toNat < 16 := by decide
  exact hlt _

theorem hkSample_hkId_unshifted_iff (f : RawFrame) :
    (hkSample f).hkId = 10 ∨ (hkSample f).hkId = 11 ↔ h0Id (frameH0 f) = 10 ∨ h0Id (frameH0 f) = 11 := by
  have hiff : ∀ id : BitVec 4, id.setWidth 8 = (10 : Byte) ∨ id.setWidth 8 = (11 : Byte) ↔ id = 10 ∨ id = 11 := by decide
  exact hiff _

theorem toNat_hkRaw_unshifted {id : BitVec 4} (h : id = 10 ∨ id = 11) (v12 : BitVec 12) :
    (hkRaw id v12).toNat = v12.toNat := by
  rw [hkRaw, if_pos h, BitVec.toNat_setWidth]
  omega

theorem toNat_hkRaw_shifted {id : BitVec 4} (h : ¬(id = 10 ∨ id = 11)) (v12 : BitVec 12) :
    (hkRaw id v12).toNat = v12.toNat * 16 := by
  rw [hkRaw, if_neg h, BitVec.toNat_append, ← Nat.shiftLeft_add_eq_or_of_lt (BitVec.isLt _), Nat.shiftLeft_eq]
  rfl

theorem calibrateResult_known {id : Byte} (h : id.extractLsb' 4 4 = 0) (cfg : Config) (raw : U16) (vpc : F64)
    (unit : HardwareUnit) : ∃ y, calibrateResult cfg id raw vpc unit = .okValue y := by
  unfold calibrateResult
  rw [if_neg (not_not_intro h)]
  repeat' split
  all_goals exact ⟨_, rfl⟩

/-- Settles O43: the id of a sample has a clear high nibble, and every such id is a channel. -/
theorem decodedIdsAreKnownChannels : Obligations.DecodedIdsAreKnownChannels := by
  unfold Obligations.DecodedIdsAreKnownChannels
  intro s t f smp hexec hres
  obtain rfl := Host.Outcome.next.inj ((exec_decodeHk f s).symm.trans hexec)
  have hsmp : hkResult f = .okHk smp := result_eq_of_results rfl hres
  obtain rfl : hkSample f = smp := by
    unfold hkResult at hsmp
    split at hsmp
    · exact Result.okHk.inj hsmp
    · cases hsmp
  refine ⟨hkSample_hkId_lt f, fun vpc unit => ?_⟩
  obtain ⟨y, hy⟩ := calibrateResult_known (hkSample_hkId_high f) s.cfg (hkSample f).hkValueRaw vpc unit
  exact ⟨y, by rw [exec, execCalibrate, complete_cfg, hy]; rfl⟩

/-- Settles O44: a raw value is the 12 bits of the frame, or 16 times them. -/
theorem rawValuesFollowTheIdLaw : Obligations.RawValuesFollowTheIdLaw := by
  unfold Obligations.RawValuesFollowTheIdLaw
  intro f
  have hlt := (h0Val12 (frameH0 f)).isLt
  split
  · next hid =>
    have hraw : (hkSample f).hkValueRaw.toNat = _ := toNat_hkRaw_unshifted ((hkSample_hkId_unshifted_iff f).1 hid) _
    omega
  · next hid =>
    have hraw : (hkSample f).hkValueRaw.toNat = _ :=
      toNat_hkRaw_shifted (fun h => hid ((hkSample_hkId_unshifted_iff f).2 h)) _
    omega

/-- Settles O41: `hkResult` of either kind of frame, which is also what the frame's own row returns. -/
theorem decodeHkReturnsTheSampleOrNone : Obligations.DecodeHkReturnsTheSampleOrNone := by
  unfold Obligations.DecodeHkReturnsTheSampleOrNone
  refine fun s f => ⟨rfl, fun hkt => List.forall_mem_cons.2 ⟨?_, List.forall_mem_singleton.2 rfl⟩,
    fun hkt => List.forall_mem_cons.2 ⟨?_, List.forall_mem_singleton.2 rfl⟩⟩
  · rw [exec_decodeHk, hkResult_of_hkt hkt]
    rfl
  · rw [exec_decodeHk, hkResult_of_not_hkt hkt]
    rfl

-- HKCAL

theorem hostIssue_decodeHk (f : RawFrame) (s : State) :
    hostIssue { hostWordOf 0x11 with frame := f } s = .next (complete (hkResult f) s) :=
  (step_issueFirst rfl).trans (exec_decodeHk f s)

theorem hostIssue_calibrate (id : Byte) (raw : U16) (vpc : F64) (unit : HardwareUnit) (s : State) :
    hostIssue { hostWordOf 0x20 with id := id, raw := raw, vpc := vpc, unit := unit } s =
      .next (complete (calibrateResult s.cfg id raw vpc unit) s) :=
  step_issueFirst (i := .calibrate id raw vpc unit) rfl

theorem complete_complete (r q : Result) (s : State) :
    complete q (complete r s) = { s with results := s.results ++ [⟨s.active, r⟩, ⟨s.active, q⟩] } := by
  rw [complete, complete_results, complete_active, List.append_assoc]
  rfl

/-- Settles O60: DECODE_HK answers `hkResult`, and CALIBRATE of a sample always answers a value. -/
theorem hkcalDecodesThenCalibrates : Obligations.HkcalDecodesThenCalibrates := by
  unfold Obligations.HkcalDecodesThenCalibrates
  refine fun s f vpc unit => ⟨fun hkt => ?_, fun hkt => ?_⟩
  · simp only [hkcal, hostIssue_decodeHk, hkResult_of_not_hkt hkt, andThen, answered_complete rfl]
    rfl
  · obtain ⟨y, hy⟩ := calibrateResult_known (hkSample_hkId_high f) s.cfg (hkSample f).hkValueRaw vpc unit
    refine ⟨y, hy, ?_⟩
    simp only [hkcal, hostIssue_decodeHk, hkResult_of_hkt hkt, andThen, answered_complete rfl, hostIssue_calibrate,
      complete_cfg, hy]
    rw [complete_complete]

-- DECODE_SCI

theorem sciChannel_d7 {cfg : Config} (h : cfg.fpEval = .d7) (count : U16) :
    sciChannel cfg count = fmul (toF64 count.toNat) (vpcSci cfg) := by
  simp only [sciChannel, evalScaled, h, scaledValue]

/-- Settles O40: DECODE_SCI and its row return `sciSample`, whose channels are the products under D7. -/
theorem decodeSciReturnsTheSample : Obligations.DecodeSciReturnsTheSample := by
  unfold Obligations.DecodeSciReturnsTheSample
  refine fun s f hd7 => ⟨rfl, fun i hi => ?_⟩
  have hexec : exec i s = .next (complete (.okSci (sciSample s.cfg f)) s) := by
    revert i
    exact List.forall_mem_cons.2 ⟨rfl, List.forall_mem_singleton.2 rfl⟩
  simp only [sciSample, sciChannel_d7 hd7] at hexec
  exact hexec

/-- Settles O45: the sample is one of the frame, D7 and `VPC_SCI` alone, and those are fixed. -/
theorem workedFrameDecodes : Obligations.WorkedFrameDecodes := by
  unfold Obligations.WorkedFrameDecodes
  intro s hd7 hscale
  have hsample : sciSample s.cfg 0xFE6B2840000000051000200030004000 =
      ⟨false, 5, 0x3FD0000000000000, 0x3FE0000000000000, 0x3FE8000000000000, 0x3FF0000000000000⟩ := by
    rw [sciSample_eq_sciSampleAt, vpcSci, hd7, hscale]
    decide +kernel
  rw [exec, execDecodeSci, sciReturn, hsample]
  rfl

-- The product of a count

/-- The exponent step of a multiple of `2 ^ p` whose other factor has 53 bits or fewer divides it. -/
theorem IsStep.le_and_dvd {n p e : Nat} (h : IsStep (n * 2 ^ p) 1 e) (hn : n < 2 ^ 53) : e ≤ p ∧ 2 ^ e ∣ n * 2 ^ p := by
  have hle : e ≤ p := by
    rcases h.1 with rfl | hge
    · exact Nat.zero_le p
    · have hlt : n * 2 ^ p < 2 ^ 53 * 2 ^ p := Nat.mul_lt_mul_of_pos_right hn (Nat.two_pow_pos p)
      rw [Nat.one_mul] at hge
      have hpow : 2 ^ (52 + e) < 2 ^ (53 + p) := by
        rw [Nat.pow_add, Nat.pow_add]
        exact Nat.lt_of_le_of_lt hge hlt
      have hexp := (Nat.pow_lt_pow_iff_right (by decide)).1 hpow
      omega
  exact ⟨hle, Nat.dvd_mul_left_of_dvd (Nat.pow_dvd_pow 2 hle) n⟩

/-- `to_f64` of a count is exact (R11). -/
theorem toF64_exact {n : Nat} (h : n < 2 ^ 53) :
    f64IsFinite (toF64 n) = true ∧ f64Int (toF64 n) = n * 2 ^ 1074 := by
  generalize hN : n * 2 ^ 1074 = N
  generalize he : Nat.log2 (N / 1) - 52 = e
  have hstep : IsStep N 1 e := he ▸ isStep_log2 N 1 Nat.one_pos
  obtain ⟨hexp, k, hk⟩ := IsStep.le_and_dvd (n := n) (p := 1074) (hN.symm ▸ hstep) h
  obtain ⟨hle, hge⟩ := hstep.significand Nat.one_pos
  have hexact : divHalfEven N (1 * 2 ^ e) * 2 ^ e = N := by
    rw [← hN, hk, Nat.one_mul, Nat.mul_comm (2 ^ e) k, divHalfEven_exact k _ (Nat.two_pow_pos e)]
  have hlow : encodingAt N 1 e < 2047 * 2 ^ 52 := by
    unfold encodingAt
    omega
  have hunits : f64Units (f64Pack false (encodingAt N 1 e)) = N :=
    (f64Units_pack_step false (by unfold encodingAt at hlow; omega) hle hge).trans hexact
  have hshift : n <<< 1074 = N := by rw [Nat.shiftLeft_eq, hN]
  rw [toF64, roundRat_eq false n 1 hshift he, if_pos hlow]
  refine ⟨f64IsFinite_pack false hlow, ?_⟩
  rw [f64Int_eq, f64Sign_pack, hunits, ← hN]
  generalize 1074 = p
  rw [Int.natCast_mul, Int.natCast_pow]
  rfl

/-- The product of a count and a finite value is their exact product, rounded once. -/
theorem fmul_toF64_isRounded {n : Nat} (hn : n < 2 ^ 53) {v : F64} (hv : f64IsFinite v = true) :
    IsRounded (fmul (toF64 n) v) (n * f64Int v) 1 := by
  obtain ⟨hfin, hint⟩ := toF64_exact hn
  have h := fmul_isRounded hfin hv
  rw [hint, Int.mul_right_comm] at h
  generalize 1074 = p at h
  exact isRounded_mul_right (Nat.two_pow_pos p) (by rwa [Nat.one_mul, Int.natCast_pow])

/-- A value no larger than one that rounds to a finite value is itself rounded to the nearest finite value. -/
theorem IsRounded.isNearestEven {r q : F64} {n m : Int} {d : Nat} (h : IsRounded r n d) (hq : IsRounded q m d)
    (hfin : f64IsFinite q = true) (hle : n.natAbs ≤ m.natAbs) : IsNearestEven r n d := by
  rcases h with ⟨-, hnear⟩ | ⟨-, hover, -⟩
  · exact hnear
  · rcases hq with ⟨hlt, -⟩ | ⟨hinf, -⟩
    · exact absurd (Nat.lt_of_le_of_lt hle hlt) (Nat.not_lt.2 hover)
    · rw [f64IsInf_of_finite hfin] at hinf
      cases hinf

theorem f64Int_eq_units {a : F64} (h : 0 ≤ f64Int a) : f64Int a = f64Units a := by
  rw [← natAbs_f64Int, Int.natAbs_of_nonneg h]

-- ENC_SCI and back

section
variable (w0 w1 : U32) (h0 h1 h2 h3 : U16)

@[simp] theorem frameW1_frameOfFields : frameW1 (frameOfFields w0 w1 h0 h1 h2 h3) = w1 := by
  unfold frameW1 frameOfFields
  iterate 4 rw [BitVec.extractLsb'_append_eq_of_le (by decide)]
  exact BitVec.extractLsb'_append_eq_right

@[simp] theorem frameH0_frameOfFields : frameH0 (frameOfFields w0 w1 h0 h1 h2 h3) = h0 := by
  unfold frameH0 frameOfFields
  iterate 3 rw [BitVec.extractLsb'_append_eq_of_le (by decide)]
  exact BitVec.extractLsb'_append_eq_right

@[simp] theorem frameH1_frameOfFields : frameH1 (frameOfFields w0 w1 h0 h1 h2 h3) = h1 := by
  unfold frameH1 frameOfFields
  iterate 2 rw [BitVec.extractLsb'_append_eq_of_le (by decide)]
  exact BitVec.extractLsb'_append_eq_right

@[simp] theorem frameH2_frameOfFields : frameH2 (frameOfFields w0 w1 h0 h1 h2 h3) = h2 := by
  unfold frameH2 frameOfFields
  rw [BitVec.extractLsb'_append_eq_of_le (by decide)]
  exact BitVec.extractLsb'_append_eq_right

@[simp] theorem frameH3_frameOfFields : frameH3 (frameOfFields w0 w1 h0 h1 h2 h3) = h3 :=
  BitVec.extractLsb'_append_eq_right

end

theorem w1Cmd_encSci (smp : ScienceSample) (vpc : F64) : w1Cmd (frameW1 (encSci smp vpc)) = smp.isCommanded := by
  rw [encSci, frameW1_frameOfFields, w1Cmd, BitVec.getLsbD_append]
  cases smp.isCommanded with
  | false => rfl
  | true => rfl

theorem w1Ts_encSci {smp : ScienceSample} (h : smp.timestamp.toNat < 2 ^ 30) (vpc : F64) :
    w1Ts (frameW1 (encSci smp vpc)) = smp.timestamp := by
  rw [encSci, frameW1_frameOfFields, w1Ts, BitVec.extractLsb'_append_eq_right]
  apply BitVec.eq_of_toNat_eq
  rw [BitVec.toNat_setWidth, BitVec.extractLsb'_toNat, Nat.shiftRight_zero]
  omega

/-- The count of a channel in range is the one nearest it, no clamp being met. -/
theorem encCount_near {c vpc : F64} (hv : 0 < f64Int vpc) (hc : 0 ≤ f64Int c) (hle : f64Int c ≤ 65535 * f64Int vpc) :
    2 * ((encCount c vpc).toNat * f64Int vpc - f64Int c).natAbs ≤ f64Units vpc := by
  have hcu := f64Int_eq_units hc
  have hvu := f64Int_eq_units (Int.le_of_lt hv)
  have hpos : 0 < f64Units vpc := by omega
  obtain ⟨hlo, hhi⟩ := divHalfEven_near (f64Units c) (f64Units vpc) hpos
  have hmax : divHalfEven (f64Units c) (f64Units vpc) ≤ 65535 := by
    refine Nat.le_of_not_lt fun hlt => ?_
    have hmul := Nat.mul_le_mul_right (f64Units vpc) hlt
    omega
  have hcount : (encCount c vpc).toNat = divHalfEven (f64Units c) (f64Units vpc) := by
    rw [encCount, if_neg (Int.not_lt.2 hc), Nat.min_eq_right hmax, BitVec.toNat_ofNat]
    omega
  rw [hcount, hcu, hvu, ← Int.natCast_mul]
  omega

/-- A channel in range comes back finite and within one LSB: its count is within half an LSB, and the rounded product of the
count is no farther from the exact one than the channel itself. -/
theorem decodedChannel_near {c vpc : F64} (hfin : f64IsFinite vpc = true) (hv : 0 < f64Int vpc)
    (hmax : f64IsFinite (fmul (toF64 65535) vpc) = true)
    (hc : f64IsFinite c = true ∧ 0 ≤ f64Int c ∧ f64Int c ≤ 65535 * f64Int vpc) :
    (f64Int (fmul (toF64 (encCount c vpc).toNat) vpc) - f64Int c).natAbs ≤ f64Units vpc ∧
    f64IsFinite (fmul (toF64 (encCount c vpc).toNat) vpc) = true := by
  obtain ⟨hcfin, hc0, hcle⟩ := hc
  have hcount := (encCount c vpc).isLt
  have hnear := encCount_near hv hc0 hcle
  have hbound : ((encCount c vpc).toNat * f64Int vpc).natAbs ≤ ((65535 : Nat) * f64Int vpc).natAbs := by
    rw [Int.natAbs_mul, Int.natAbs_mul, Int.natAbs_natCast, Int.natAbs_natCast]
    exact Nat.mul_le_mul_right _ (by omega)
  obtain ⟨hback, hbest⟩ := (fmul_toF64_isRounded (by omega) hfin).isNearestEven
    (fmul_toF64_isRounded (by decide) hfin) hmax hbound
  have hchannel := (hbest c hcfin).1
  exact ⟨by omega, hback⟩

/-- Settles O46: flag and timestamp are their bits, and each channel is `decodedChannel_near`. -/
theorem encodedSampleDecodesBack : Obligations.EncodedSampleDecodesBack := by
  unfold Obligations.EncodedSampleDecodesBack
  intro s smp vpc hd7 hvpc hfin hv hmax hts hch
  have hback := fun c hc => decodedChannel_near hfin hv hmax (hch c hc)
  simp only [List.forall_mem_cons] at hback
  obtain ⟨⟨hnear1, hfin1⟩, ⟨hnear2, hfin2⟩, ⟨hnear3, hfin3⟩, ⟨hnear4, hfin4⟩, -⟩ := hback
  refine ⟨sciSample s.cfg (encSci smp vpc), rfl, w1Cmd_encSci smp vpc, w1Ts_encSci hts vpc, ?_⟩
  simp only [sciSample, sciChannel_d7 hd7, hvpc, encSci, frameH0_frameOfFields, frameH1_frameOfFields,
    frameH2_frameOfFields, frameH3_frameOfFields]
  exact ⟨hnear1, hnear2, hnear3, hnear4, hfin1, hfin2, hfin3, hfin4⟩

end Sys2Proof.Machine
end

section
/-! SUPPORT. CALIBRATE by its ids: the formula or the value each returns (R143 to R159), and where it depends on the unit
(R160). -/

namespace Sys2Proof.Machine

-- Under D7

theorem evalFormula_d7 {cfg : Config} (h : cfg.fpEval = .d7) (phi : Formula) (raw : U16) (vpc : F64) :
    evalFormula cfg phi raw vpc = formulaOf cfg.kcal (scaledValue raw vpc) phi := by
  simp only [evalFormula, h]

theorem evalScaled_d7 {cfg : Config} (h : cfg.fpEval = .d7) (raw : U16) (vpc : F64) :
    evalScaled cfg raw vpc = scaledValue raw vpc := by
  simp only [evalScaled, h]

-- The ids and their rows

/-- Settles O47: each of the eight returns `evalFormula` of `T_temp`. -/
theorem temperatureIdsUseTheTemperatureFormula : Obligations.TemperatureIdsUseTheTemperatureFormula := by
  unfold Obligations.TemperatureIdsUseTheTemperatureFormula
  intro s raw vpc unit hd7
  have hvalue := evalFormula_d7 hd7 .temp raw vpc
  simp only [formulaOf, tTemp, scaledValue] at hvalue
  rw [← hvalue]
  iterate 8 refine List.forall_mem_cons.2 ⟨rfl, ?_⟩
  exact List.forall_mem_nil _

/-- Settles O48: the row and the id return `evalFormula` of the unit's formula. -/
theorem idFourUsesTheFormulaOfItsUnit : Obligations.IdFourUsesTheFormulaOfItsUnit := by
  unfold Obligations.IdFourUsesTheFormulaOfItsUnit
  intro s raw vpc hd7
  have hunit1 := evalFormula_d7 hd7 .i52U1 raw vpc
  have hunit2 := evalFormula_d7 hd7 .i52U2 raw vpc
  simp only [formulaOf, tI52U1, tI52U2, scaledValue] at hunit1 hunit2
  rw [← hunit1, ← hunit2]
  exact ⟨List.forall_mem_cons.2 ⟨rfl, List.forall_mem_singleton.2 rfl⟩,
    List.forall_mem_cons.2 ⟨rfl, List.forall_mem_singleton.2 rfl⟩⟩

/-- Settles O49: the row and the id return `evalFormula` of the unit's formula. -/
theorem idSixUsesTheFormulaOfItsUnit : Obligations.IdSixUsesTheFormulaOfItsUnit := by
  unfold Obligations.IdSixUsesTheFormulaOfItsUnit
  intro s raw vpc hd7
  have hunit1 := evalFormula_d7 hd7 .i33U1 raw vpc
  have hunit2 := evalFormula_d7 hd7 .i33U2 raw vpc
  simp only [formulaOf, tI33U1, tI33U2, scaledValue] at hunit1 hunit2
  rw [← hunit1, ← hunit2]
  exact ⟨List.forall_mem_cons.2 ⟨rfl, List.forall_mem_singleton.2 rfl⟩,
    List.forall_mem_cons.2 ⟨rfl, List.forall_mem_singleton.2 rfl⟩⟩

/-- Settles O50: both rows and the id return `evalFormula` of `T_i28`. -/
theorem idEightUsesOneFormulaForBothUnits : Obligations.IdEightUsesOneFormulaForBothUnits := by
  unfold Obligations.IdEightUsesOneFormulaForBothUnits
  intro s raw vpc unit hd7
  have hvalue := evalFormula_d7 hd7 .i28 raw vpc
  simp only [formulaOf, tI28, scaledValue] at hvalue
  rw [← hvalue]
  iterate 3 refine List.forall_mem_cons.2 ⟨rfl, ?_⟩
  exact List.forall_mem_nil _

/-- Settles O51: each of the twelve returns `evalScaled`. -/
theorem scaledIdsReturnTheScaledValue : Obligations.ScaledIdsReturnTheScaledValue := by
  unfold Obligations.ScaledIdsReturnTheScaledValue
  intro s raw vpc unit hd7
  rw [← scaledValue, ← evalScaled_d7 hd7]
  iterate 12 refine List.forall_mem_cons.2 ⟨rfl, ?_⟩
  exact List.forall_mem_nil _

/-- Settles O52: a raw value has 16 bits, so `to_f64` of it is exact, and none of the six reads another operand. -/
theorem passthroughIdsReturnTheRawValue : Obligations.PassthroughIdsReturnTheRawValue := by
  unfold Obligations.PassthroughIdsReturnTheRawValue
  intro s raw vpc unit
  obtain ⟨hfin, hint⟩ := toF64_exact (Nat.lt_trans raw.isLt (by decide : 2 ^ 16 < 2 ^ 53))
  refine ⟨hfin, hint, ?_⟩
  iterate 6 refine List.forall_mem_cons.2 ⟨rfl, ?_⟩
  exact List.forall_mem_nil _

/-- Settles O53: an id of 16 or more has a bit in its high nibble (`calibrateResult_unknown`). -/
theorem unknownIdsReturnUnknownChannel : Obligations.UnknownIdsReturnUnknownChannel := by
  unfold Obligations.UnknownIdsReturnUnknownChannel
  refine fun s raw vpc unit => ⟨fun id hid => ?_, fun a b c d => ?_⟩
  · have hhigh : ∀ id : Byte, 16 ≤ id.toNat → id.extractLsb' 4 4 ≠ 0 := by decide +kernel
    rw [exec, execCalibrate, calibrateResult_unknown (hhigh id hid)]
    rfl
  · iterate 4 refine List.forall_mem_cons.2 ⟨rfl, ?_⟩
    exact List.forall_mem_nil _

/-- Settles O54: CALIBRATE looks at the unit in the cases of ids 4 and 6 alone. -/
theorem onlyIdsFourAndSixDependOnTheUnit : Obligations.OnlyIdsFourAndSixDependOnTheUnit := by
  unfold Obligations.OnlyIdsFourAndSixDependOnTheUnit
  intro s id raw vpc hfour hsix
  simp only [exec, execCalibrate, calibrateResult, hfour, hsix, if_false]

/-- Settles O57: the twelve literals rounded by `litF64`. -/
theorem constantsAreTheNearestToTheLiterals : Obligations.ConstantsAreTheNearestToTheLiterals := by
  unfold Obligations.ConstantsAreTheNearestToTheLiterals
  decide +kernel

/-- Refutes O56: with `vpc = +infinity` the scaled value of a count of 1 is +infinity, and so is what either formula of id 4
makes of it. -/
theorem not_idFourUnitsDifferForEveryVpc : ¬ Obligations.IdFourUnitsDifferForEveryVpc := by
  unfold Obligations.IdFourUnitsDifferForEveryVpc
  intro h
  have hunit1 : tI52U1 kcalSource (scaledValue 1 (f64Inf false)) = f64Inf false := by decide +kernel
  have hunit2 : tI52U2 kcalSource (scaledValue 1 (f64Inf false)) = f64Inf false := by decide +kernel
  have hsame : calibrateResult State.reset.cfg 4 1 (f64Inf false) .unit1 =
      calibrateResult State.reset.cfg 4 1 (f64Inf false) .unit2 := congrArg Result.okValue (hunit1.trans hunit2.symm)
  exact h State.reset 1 (f64Inf false) rfl rfl (by decide) (by decide) (by rw [exec, execCalibrate, hsame]; rfl)

end Sys2Proof.Machine
end

section
/-! SUPPORT. The units of id 4 differ where nothing overflows (R161). The idea: a rounded result is within half a unit and a
thousandth of the exact one, and the divisors 18 and 21.456 lie much farther apart than that. -/

namespace Sys2Proof.Machine

-- The error of one rounding

/-- The significand's multiple is within half a unit (the least step) or `2 ^ -53` of the exact value (any other step). -/
theorem IsStep.near {N d e : Nat} (h : IsStep N d e) (hd : 0 < d) :
    1000 * ((divHalfEven N (d * 2 ^ e) : Int) * 2 ^ e * d - N).natAbs ≤ 500 * d + N := by
  obtain ⟨hlo, hhi⟩ := divHalfEven_near N (d * 2 ^ e) (Nat.mul_pos hd (Nat.two_pow_pos e))
  have hreorder : (divHalfEven N (d * 2 ^ e) : Int) * 2 ^ e * d = (divHalfEven N (d * 2 ^ e) * (d * 2 ^ e) : Nat) := by
    push_cast
    rw [Int.mul_assoc, Int.mul_comm (2 ^ e)]
  rw [hreorder]
  rcases h.1 with rfl | hge <;> omega

/-- The value of the encoding at a step, below infinity's. -/
theorem IsStep.f64Int_pack {N d e : Nat} (h : IsStep N d e) (hd : 0 < d) (s : Bool)
    (hlow : encodingAt N d e < 2047 * 2 ^ 52) :
    f64Int (f64Pack s (encodingAt N d e)) = withSign s (divHalfEven N (d * 2 ^ e) * 2 ^ e) := by
  obtain ⟨hmle, hmge⟩ := h.significand hd
  have hunits : f64Units (f64Pack s (encodingAt N d e)) = divHalfEven N (d * 2 ^ e) * 2 ^ e :=
    f64Units_pack_step s (by unfold encodingAt at hlow; omega) hmle hmge
  rw [f64Int_eq, f64Sign_pack, hunits]
  push_cast
  rfl

/-- A result far from overflow is finite and within half a unit and a thousandth of the exact value: it is no farther from
it than the encoding at the step. -/
theorem IsRounded.near {r : F64} {n : Int} {d : Nat} (h : IsRounded r n d) (hd : 0 < d)
    (hn : n.natAbs ≤ 2 ^ 100 * 2 ^ 1900) :
    f64IsFinite r = true ∧ 1000 * (f64Int r * d - n).natAbs ≤ 500 * d + n.natAbs := by
  have hmid : n.natAbs < d * (2 ^ 2098 - 2 ^ 2044) :=
    Nat.lt_of_lt_of_le (Nat.lt_of_le_of_lt hn (by decide +kernel)) (Nat.le_mul_of_pos_left _ hd)
  obtain ⟨hfin, hbest⟩ : IsNearestEven r n d := h.elim And.right fun ⟨_, hover, _⟩ => absurd hover (Nat.not_le.2 hmid)
  generalize he : Nat.log2 (n.natAbs / d) - 52 = e
  have hstep : IsStep n.natAbs d e := he ▸ isStep_log2 n.natAbs d hd
  have hlow : encodingAt n.natAbs d e < 2047 * 2 ^ 52 := (hstep.encoding_lt_iff hd 2044).2 (midpoint_eq d ▸ hmid)
  have hle := (hbest _ (f64IsFinite_pack (decide (n < 0)) hlow)).1
  have hsign : withSign (decide (n < 0)) n = n.natAbs := by
    have hback := withSign_withSign (decide (n < 0)) n.natAbs
    rwa [withSign_decide_natAbs] at hback
  rw [hstep.f64Int_pack hd _ hlow, ← withSign_mul, natAbs_withSign_sub, hsign] at hle
  exact ⟨hfin, Nat.le_trans (Nat.mul_le_mul_left 1000 hle) (hstep.near hd)⟩

-- The operations of id 4

theorem fmul_milli_isRounded {v : F64} (hv : f64IsFinite v = true) :
    IsRounded (fmul v kcalSource.milli) (f64Int v * 1000) 1 := by
  have hmilli : f64Int kcalSource.milli = 1000 * 2 ^ 1074 := by decide +kernel
  have h := fmul_isRounded hv (by decide : f64IsFinite kcalSource.milli = true)
  rw [hmilli, ← Int.mul_assoc] at h
  generalize 1074 = p at h
  exact isRounded_mul_right (Nat.two_pow_pos p) (by rwa [Nat.one_mul, Int.natCast_pow])

/-- A quotient by a positive constant of `d * k` units, where 1 is `c * k` units. -/
theorem fdiv_isRounded_of_units {a b : F64} {c d k : Nat} (ha : f64IsFinite a = true) (hb : f64IsFinite b = true)
    (hsign : f64Sign b = false) (hd : 0 < d) (hk : 0 < k) (hunits : f64Units b = d * k)
    (hone : (2 ^ 1074 : Int) = c * k) : IsRounded (fdiv a b) (f64Int a * c) d := by
  have hint : f64Int b = (d * k : Nat) := by
    rw [f64Int_eq, hsign, hunits]
    rfl
  have hpos : 0 < d * k := Nat.mul_pos hd hk
  have h := fdiv_isRounded ha hb (by omega)
  rw [hsign, if_neg Bool.false_ne_true, Int.mul_one, hunits, hone, ← Int.mul_assoc] at h
  exact isRounded_mul_right hk h

theorem fdiv_i52U1Div_isRounded {a : F64} (ha : f64IsFinite a = true) :
    IsRounded (fdiv a kcalSource.i52U1Div) (f64Int a) 18 := by
  have h := fdiv_isRounded_of_units (b := kcalSource.i52U1Div) (c := 1) (d := 18) (k := 2 ^ 1074) ha (by decide) (by decide)
    (by decide) (Nat.two_pow_pos _) (by decide +kernel) (by decide +kernel)
  rwa [Int.natCast_one, Int.mul_one] at h

/-- 21.456 has the significand `0x1574BC6A7EF9DB` and the exponent `-48`. -/
theorem fdiv_i52U2Div_isRounded {a : F64} (ha : f64IsFinite a = true) :
    IsRounded (fdiv a kcalSource.i52U2Div) (f64Int a * (2 ^ 48 : Nat)) 0x1574BC6A7EF9DB :=
  fdiv_isRounded_of_units (k := 2 ^ 1026) ha (by decide) (by decide) (by decide) (Nat.two_pow_pos _) (by decide +kernel)
    (by decide +kernel)

-- The formulas of id 4

section
variable {v : F64} (hv : f64IsFinite v = true) (h0 : 0 ≤ f64Int v) (hlt : f64Units v < 2 ^ 20 * 2 ^ 1900)
include hv h0 hlt

/-- The first formula of id 4 gives at least `980 / 18` times the value: exactly it is `1000 / 18` times. -/
theorem tI52U1_ge : 980 * f64Int v ≤ 18 * f64Int (tI52U1 kcalSource v) := by
  rw [← natAbs_f64Int] at hlt
  generalize hT : 2 ^ 1900 = T at hlt
  obtain ⟨hp, hpnear⟩ := (fmul_milli_isRounded hv).near Nat.one_pos (by rw [hT]; omega)
  obtain ⟨-, hunear⟩ := (fdiv_i52U1Div_isRounded hp).near (by decide) (by rw [hT]; omega)
  rw [← tI52U1] at hunear
  omega

/-- The second gives less than 50 times the value: exactly it is `1000 / 21.456` times, less a constant. -/
theorem tI52U2_lt : f64Int (tI52U2 kcalSource v) < 50 * f64Int v := by
  have hoff : f64IsFinite kcalSource.i52U2Off = true := by decide
  have hofflo : 1000 < f64Int kcalSource.i52U2Off := by decide +kernel
  have hoffhi : f64Int kcalSource.i52U2Off < (2 ^ 20 * 2 ^ 1900 : Nat) := by decide +kernel
  rw [← natAbs_f64Int] at hlt
  generalize hT : 2 ^ 1900 = T at hlt hoffhi
  obtain ⟨hw, hwnear⟩ := (fsub_isRounded hv hoff).near Nat.one_pos (by rw [hT]; omega)
  obtain ⟨hp, hpnear⟩ := (fmul_milli_isRounded hw).near Nat.one_pos (by rw [hT]; omega)
  obtain ⟨-, hunear⟩ := (fdiv_i52U2Div_isRounded hp).near (by decide) (by rw [hT]; omega)
  rw [← tI52U2] at hunear
  omega

end

/-- The scaled value of a count and a `vpc` that is not negative and far from overflow is so too. -/
theorem scaledValue_far_from_overflow {raw : U16} {vpc : F64} (hfin : f64IsFinite vpc = true) (h0 : 0 ≤ f64Int vpc)
    (hlt : f64Units vpc < 2 ^ 1900) :
    f64IsFinite (scaledValue raw vpc) = true ∧ 0 ≤ f64Int (scaledValue raw vpc) ∧
    f64Units (scaledValue raw vpc) < 2 ^ 20 * 2 ^ 1900 := by
  have hraw := raw.isLt
  have hmul : raw.toNat * f64Units vpc ≤ 2 ^ 16 * f64Units vpc := Nat.mul_le_mul_right _ (Nat.le_of_lt hraw)
  have hrounded := fmul_toF64_isRounded (Nat.lt_trans hraw (by decide : 2 ^ 16 < 2 ^ 53)) hfin
  rw [← scaledValue, f64Int_eq_units h0, ← Int.natCast_mul] at hrounded
  rw [← natAbs_f64Int (scaledValue raw vpc)]
  generalize hT : 2 ^ 1900 = T at *
  obtain ⟨hvfin, hvnear⟩ := hrounded.near Nat.one_pos (by rw [hT]; omega)
  exact ⟨hvfin, by omega, by omega⟩

/-- Settles O55: the scaled value is not negative and far from overflow, where the first formula gives
at least 54 times its value and the second less than 50 times (`tI52U1_ge`, `tI52U2_lt`). -/
theorem idFourUnitsDifferBelowOverflow : Obligations.IdFourUnitsDifferBelowOverflow := by
  unfold Obligations.IdFourUnitsDifferBelowOverflow
  intro s raw vpc hd7 hkcal hfin h0 hlt hexec
  have hformula : evalFormula s.cfg .i52U1 raw vpc = evalFormula s.cfg .i52U2 raw vpc :=
    Result.okValue.inj (complete_inj (Host.Outcome.next.inj hexec))
  rw [evalFormula_d7 hd7, evalFormula_d7 hd7, hkcal] at hformula
  obtain ⟨hvfin, hv0, hvlt⟩ := scaledValue_far_from_overflow (raw := raw) hfin h0 hlt
  have hunit1 := tI52U1_ge hvfin hv0 hvlt
  have hunit2 := tI52U2_lt hvfin hv0 hvlt
  have hsame : f64Int (tI52U1 kcalSource (scaledValue raw vpc)) = f64Int (tI52U2 kcalSource (scaledValue raw vpc)) :=
    congrArg f64Int hformula
  omega

end Sys2Proof.Machine
end

section
/-! SUPPORT. Faults and results: an operation either returns one result, with a status of its row of the status table, and
leaves FAULT alone, or it records a fault and does nothing else (60_exceptions.md R180, R181, R185, R189). -/

namespace Sys2Proof.Machine

-- The mark FAULT

/-- Of every effect, the refusals record a fault and each other one appends one result, the mark staying (R180, R189). -/
theorem exec_result_or_fault {i : Instr} {s t : State} (h : exec i s = .next t) :
    (∃ r, t.results = s.results ++ [⟨s.active, r⟩] ∧ t.faultMark = s.faultMark) ∨ ∃ why, t = recordFault why s := by
  cases exec_effect h with
  | returned | syncRow | nosyncRow | loaded | restarted => exact .inl ⟨_, rfl, rfl⟩
  | scanned _ hrun =>
    obtain ⟨_, _, rfl, -, -⟩ := hrun.frame
    exact .inl ⟨_, rfl, rfl⟩
  | loadRefused | noBuffer => exact .inr ⟨_, rfl⟩

/-- A reason once recorded is the one kept (R185, log 3). -/
theorem recordFault_keeps_reason {s : State} {old : FaultReason} (h : s.faultMark = some old) (why : FaultReason) :
    (recordFault why s).faultMark = some old := by
  simp [h]

theorem exec_keeps_reason {i : Instr} {s t : State} {old : FaultReason} (h : s.faultMark = some old)
    (hexec : exec i s = .next t) : t.faultMark = some old := by
  rcases exec_result_or_fault hexec with ⟨_, -, hmark⟩ | ⟨why, rfl⟩
  · rw [hmark, h]
  · exact recordFault_keeps_reason h why

/-- Settles O34: taking an operation leaves the mark alone, and instructions and refusals keep its reason. -/
theorem faultMarkStays : Obligations.FaultMarkStays := by
  unfold Obligations.FaultMarkStays
  intro s t old hmark hstep
  exact step_keeps (P := fun u => u.faultMark = some old) (fun _ _ _ _ h => h) (fun why _ h => recordFault_keeps_reason h why)
    (fun _ _ _ _ h hexec => exec_keeps_reason h hexec) hmark hstep

/-- Settles O35: a recorded fault is the mark alone (`recordFault_spec`), and every other effect is a result. -/
theorem resultsLeaveTheFaultMark : Obligations.ResultsLeaveTheFaultMark := by
  unfold Obligations.ResultsLeaveTheFaultMark
  intro i s t hexec
  refine (exec_result_or_fault hexec).imp_right ?_
  rintro ⟨why, rfl⟩
  obtain ⟨kept, hfault, -, -⟩ := recordFault_spec why s
  exact ⟨kept, hfault⟩

/-- Settles O33: the clauses of O18, O19, O21 and O17 for a missing buffer and for one that does not fit. -/
theorem faultsSetTheMarkOnly : Obligations.FaultsSetTheMarkOnly := by
  unfold Obligations.FaultsSetTheMarkOnly
  intro s
  obtain ⟨-, hrestart⟩ := restartRewindsTheCursor
  obtain ⟨-, hstep⟩ := stepExaminesOnePosition
  obtain ⟨-, hnext⟩ := nextReturnsTheNextFrameOrEnd
  refine ⟨fun hl => ?_, fun b => (loadTakesTheBuffer s b).2.2⟩
  simp only [List.forall_mem_cons]
  exact ⟨(hrestart s).2 hl, (hstep s).1 hl, (hnext s).1 hl, nofun⟩

-- The statuses

/-- A result that was appended between the two states has a status of the list. -/
def ReturnsAmong (statuses : List Status) (s t : State) : Prop :=
  ∀ r, t.results = s.results ++ [⟨s.active, r⟩] → statusOf r ∈ statuses

theorem returnsAmong_complete {statuses : List Status} {r : Result} {s t : State} (hkept : t.results = s.results)
    (h : statusOf r ∈ statuses) : ReturnsAmong statuses s (complete r t) := by
  intro r' hres
  rwa [← result_eq_of_results hkept hres]

/-- A recorded fault returns no result (R180). -/
theorem returnsAmong_recordFault (statuses : List Status) (why : FaultReason) (s : State) :
    ReturnsAmong statuses s (recordFault why s) := by
  intro r hres
  simp at hres

/-- What a scan begun in `s` comes to has a status of the list, where it has one, and no result was returned on the way. -/
def Scan.Among (statuses : List Status) (s : State) : Scan → Prop
  | .noBuffer => True
  | .hole _ => True
  | .emitted _ t => .emitted ∈ statuses ∧ t.results = s.results
  | .skipped t => .skipped ∈ statuses ∧ t.results = s.results
  | .ended t => .ended ∈ statuses ∧ t.results = s.results

theorem returnsAmong_scanFinish {statuses : List Status} {s t : State} {sc : Scan} (hsc : sc.Among statuses s)
    (h : scanFinish s sc = .next t) : ReturnsAmong statuses s t := by
  cases sc with
  | noBuffer => cases h; exact returnsAmong_recordFault _ _ _
  | hole => cases h
  | emitted | skipped | ended =>
    obtain ⟨hmem, hkept⟩ := hsc
    cases h
    exact returnsAmong_complete hkept hmem

/-- The two tests before the window test add END to what a row returns (R102, R188). -/
theorem scanGuard_among {statuses : List Status} {row : State → Scan} {s : State} (hend : .ended ∈ statuses)
    (hrow : (row s).Among statuses s) : (scanGuard row s).Among statuses s := by
  unfold scanGuard
  split
  · trivial
  · split
    · exact ⟨hend, rfl⟩
    · exact hrow

theorem rowSync_among {statuses : List Status} (h : .emitted ∈ statuses) (s : State) : (rowSync s).Among statuses s := by
  unfold rowSync
  split
  · exact ⟨h, rfl⟩
  · trivial

theorem rowNosync_among {statuses : List Status} (h : .skipped ∈ statuses) (s : State) :
    (rowNosync s).Among statuses s :=
  ⟨h, rfl⟩

theorem scanStep_among (s : State) : (scanStep s).Among [.emitted, .skipped, .ended] s := by
  refine scanGuard_among (by decide) ?_
  unfold rowOfWindow
  split
  · split
    · exact rowSync_among (by decide) s
    · exact rowNosync_among (by decide) s
  · trivial

/-- NEXT ends with a STEP that does not skip, so SKIPPED is not among its statuses (R103). -/
theorem scanNext_among (s : State) : (scanNext (s.len - 15 - s.cur) s).Among [.emitted, .ended] s := by
  cases hl : s.loaded with
  | false =>
    have hnone := scanStep_noBuffer hl
    rw [scanNext_eq_scanStep (by simp [hnone]), hnone]
    trivial
  | true =>
    obtain ⟨n, -, -, hscan, hstop, -⟩ := scanNext_cases _ s hl rfl
    have hstep := scanStep_among (skipped n s)
    rw [hscan]
    generalize scanStep (skipped n s) = sc at hstep hstop
    cases sc with
    | noBuffer | hole => trivial
    | emitted | ended => exact ⟨by decide, hstep.2⟩
    | skipped t => exact absurd rfl (hstop t)

theorem statusOf_calibrateResult (cfg : Config) (id : Byte) (raw : U16) (vpc : F64) (unit : HardwareUnit) :
    statusOf (calibrateResult cfg id raw vpc unit) ∈ [Status.ok, .unknownChannel] := by
  by_cases h : id.extractLsb' 4 4 = 0
  · obtain ⟨y, hy⟩ := calibrateResult_known h cfg raw vpc unit
    rw [hy]
    exact .head _
  · rw [calibrateResult_unknown h]
    exact .tail _ (.head _)

theorem statusOf_hkResult (f : RawFrame) : statusOf (hkResult f) ∈ [Status.ok, .noSample] := by
  unfold hkResult
  split
  · exact .head _
  · exact .tail _ (.head _)

/-- The status table read off the instructions (R181): the scanner's by how their scans come out, the window rows at whatever
window stands at the cursor (log 12); CALIBRATE's and DECODE_HK's by the two results each can have; every other's by its one
result. -/
theorem exec_returnsAmong {i : Instr} {s t : State} (h : exec i s = .next t) : ReturnsAmong (statusesOf i) s t := by
  cases i with
  | sync => exact returnsAmong_scanFinish (scanGuard_among (.tail _ (.head _)) (rowSync_among (.head _) s)) h
  | nosync => exact returnsAmong_scanFinish (scanGuard_among (.tail _ (.head _)) (rowNosync_among (.head _) s)) h
  | step => exact returnsAmong_scanFinish (scanStep_among s) h
  | next => exact returnsAmong_scanFinish (scanNext_among s) h
  | load =>
    simp only [exec, execLoad] at h
    split at h
    · cases h; exact returnsAmong_complete rfl (.head _)
    · cases h; exact returnsAmong_recordFault _ _ _
  | restart =>
    simp only [exec, execRestart] at h
    split at h
    · cases h; exact returnsAmong_recordFault _ _ _
    · cases h; exact returnsAmong_complete rfl (.head _)
  | decodeHk f =>
    cases (exec_decodeHk f s).symm.trans h
    exact returnsAmong_complete rfl (statusOf_hkResult f)
  | calibrate => cases h; exact returnsAmong_complete rfl (statusOf_calibrateResult ..)
  | _ => cases h; exact returnsAmong_complete rfl (.head _)

/-- Settles O38: whatever result was appended, its status is in the instruction's row (`exec_returnsAmong`). -/
theorem operationsReturnTheirStatuses : Obligations.OperationsReturnTheirStatuses := by
  unfold Obligations.OperationsReturnTheirStatuses
  exact fun _ _ _ r hexec hres => exec_returnsAmong hexec r hres

end Sys2Proof.Machine
end

section
/-! SUPPORT. Idling: with nothing issued a step takes no operation (70_reset_and_hazards.md R201). -/

namespace Sys2Proof.Machine

/-- Whatever position `laneOrder` picks, an empty inbox holds no operation there. -/
theorem fetch_eq_none {s : State} (h : s.inbox = []) : fetch s = none := by
  have hget : s.inbox[pick s]? = none := by rw [h, List.getElem?_nil]
  simp [fetch, hget]

theorem step_eq_next_of_fetch_eq_none {s : State} (h : fetch s = none) : step s = .next s := by
  simp [step, h]

/-- Settles O10: nothing is taken from an empty inbox, and a step that takes nothing is idle. -/
theorem stepIdlesWithoutOperations : Obligations.StepIdlesWithoutOperations := by
  unfold Obligations.StepIdlesWithoutOperations
  exact fun _ hinbox => step_eq_next_of_fetch_eq_none (fetch_eq_none hinbox)

end Sys2Proof.Machine
end

section
/-! SUPPORT. The base case of the invariants: the reset state meets the two that every step keeps (10_state.md R26, R29,
R38). -/

namespace Sys2Proof.Machine

/-- BUF lists no byte, LEN is 0 and LOADED is clear, so every clause is trivially met. -/
theorem bufInv_reset : BufInv State.reset where
  canonical := rfl
  bytes := nofun
  curLe := nofun
  lenFits := Nat.zero_le _
  idle _ := rfl

/-- The replay of no events ends where it starts. -/
theorem histExplains_reset : HistExplains State.reset := rfl

/-- Settles O2: the buffer invariant and the history invariant, each at reset. -/
theorem resetMeetsTheInvariants : Obligations.ResetMeetsTheInvariants := by
  unfold Obligations.ResetMeetsTheInvariants
  exact ⟨bufInv_reset, histExplains_reset⟩

end Sys2Proof.Machine
end

section
/-! SUPPORT. The window rows as instructions: SYNC and NOSYNC come to STEP's branches (40_scanner.md R102, log 12). -/

namespace Sys2Proof.Machine

theorem exec_sync (s : State) : exec .sync s = scanFinish s (scanGuard rowSync s) := rfl

theorem exec_nosync (win : U32) (s : State) : exec (.nosync win) s = scanFinish s (scanGuard rowNosync s) := rfl

theorem rowSync_emitted {s : State} {bs : List Byte} (hread : readBytes s.buf s.cur 16 = some bs) :
    rowSync s = .emitted (frameOfBytes bs) (scanEmit (frameOfBytes bs) s) := by
  simp only [rowSync, hread]

/-- Where one of the two earlier tests stops the scan, the row after them does not matter (R188). -/
theorem scanGuard_eq_of_stopped {s : State} (h : s.loaded = false ∨ s.len < s.cur + 16) (row row' : State → Scan) :
    scanGuard row s = scanGuard row' s := by
  rcases h with hl | hend
  · simp [scanGuard, hl]
  · simp [scanGuard, atEnd, hend]

/-- Settles O20: past the two tests that they share with STEP (`scanGuard_eq_row`) the rows emit and skip; where one of the
tests stops the scan, rows and STEP are one (`scanGuard_eq_of_stopped`). -/
theorem windowRowsEmitOrSkip : Obligations.WindowRowsEmitOrSkip := by
  unfold Obligations.WindowRowsEmitOrSkip
  refine fun s win => ⟨fun hl hle bs hread => ?_, fun hl hle => ?_, fun hstop => ?_⟩
  · rw [exec_sync, scanGuard_eq_row _ hl hle, rowSync_emitted hread]
    rfl
  · rw [exec_nosync, scanGuard_eq_row _ hl hle]
    rfl
  · have hguard := scanGuard_eq_of_stopped hstop
    exact ⟨congrArg (scanFinish s) (hguard rowSync rowOfWindow), congrArg (scanFinish s) (hguard rowNosync rowOfWindow)⟩

end Sys2Proof.Machine
end

section
/-! SUPPORT. The spec's calibration table (95_test_vectors.md section 2.4). -/

namespace Sys2Proof.Machine

/-- Settles O58: CALIBRATE reads no parameter that the configuration leaves open, so the sixteen cells are closed facts of
the binary64 arithmetic. -/
theorem calibrationTableCells : Obligations.CalibrationTableCells := by
  unfold Obligations.CalibrationTableCells
  decide +kernel

end Sys2Proof.Machine
end
